-- ==== Sys2Proof/Word.lean ====
section
/-! DEFINITION. The word types of the block (00_scope.md R7, R8). Every value is unsigned (R9). -/

namespace Sys2Proof

/-- An 8-bit value: a node id, an edge weight, a note index, an LED pattern, a sequence id (R7). -/
abbrev Byte := BitVec 8

/-- A 16-bit value: the PRNG state, an ADC sample, a boot word, a `Wait` duration, a frequency, a
sequence position, a host register (R7). -/
abbrev Word16 := BitVec 16

/-- A 24-bit action word (30_encoding.md R60). -/
abbrev ActionWord := BitVec 24

/-- A 32-bit duration handed to the delay collaborator (R7). -/
abbrev Word32 := BitVec 32

end Sys2Proof
end

