-- ==== Sys2Proof/Config.lean ====
section
/-! DEFINITION. The parameters of 00_scope.md R6 and the free values of the model. What the spec fixes is a
definition with a body. What it marks OPEN is a field of `Config` or of the stores below; the values those have at
`State.reset`, and the free values, are opaque, so that no proof can see them (log 4, log 5, log 6, log 9). -/

namespace Sys2Proof

/-- One edge of the walk graph: `Edge { target_id: u8, weight: u8 }` (20_memory.md R46). -/
structure Edge where
  target : Byte
  weight : Byte
  deriving DecidableEq, Repr

/-- One node record of the walk graph (20_memory.md R46). `label` is an opaque symbol no rule reads; it is
numbered here (log 20). -/
structure Node where
  id : Byte
  label : Nat
  edges : List Edge
  deriving DecidableEq, Repr

/-- The node list in declared order (20_memory.md R46). -/
abbrev Graph := List Node

/-- The sequence store: sequence `s` is entry `s`, a list of 24-bit action words; `NUM_SEQ` is the length of the
outer list (20_memory.md R43). -/
abbrev SeqStore := List (List ActionWord)

/-- The frequency table: exactly 128 16-bit frequencies in Hz (20_memory.md R45). -/
abbrev FreqTable := Vector Word16 128

/-- The values of `STORAGE_ENDIAN`, which changes no result of the block (20_memory.md R49). That there are these two and
no other is a DESIGN CHOICE (log 30), safe: the spec lists none. -/
inductive Endian where
  | little
  | big
  deriving DecidableEq, Repr

/-- The scalar parameters that 00_scope.md R6 marks OPEN. No operation writes them (10_state.md R37). -/
structure Config where
  /-- `SR_TOTAL_US`: time budget of one shift-register update, in microseconds (40_shift_register.md R74). -/
  srTotalUs : Nat
  /-- `SR_MIN_US`: least setup, hold and pulse width the external register needs (70_reset_and_hazards.md R159). -/
  srMinUs : Nat
  /-- `PWM_CH`: the channel of the tone. -/
  pwmCh : Nat
  /-- `MAX_DUTY`: what `max_duty()` returns; 16 bits, as `PwmDuty` carries 16 (log 16). -/
  maxDuty : Word16
  /-- `ADC_CH`: the channel `sample()` reads; it changes no result. -/
  adcCh : Nat
  /-- `SEED_BASE`: start of the boot window; it changes no result. -/
  seedBase : Nat
  /-- `STORAGE_ENDIAN`; it changes no result (its set of values: log 30). -/
  storageEndian : Endian
  deriving DecidableEq, Repr

/-- `MAX_EDGES` (00_scope.md R6). -/
def maxEdges : Nat := 255

/-- `2^IDX_W - 1`, the top sequence position (00_scope.md R6, 10_state.md R18). -/
def topPos : Word16 := 0xFFFF

/-- DESIGN CHOICE (log 4), safe: the OPEN value `SR_TOTAL_US` of the machine at reset. -/
opaque Config.openSrTotalUs : Nat

/-- DESIGN CHOICE (log 4), safe: the OPEN value `SR_MIN_US` of the machine at reset. -/
opaque Config.openSrMinUs : Nat

/-- DESIGN CHOICE (log 4), safe: the OPEN value `PWM_CH` of the machine at reset. -/
opaque Config.openPwmCh : Nat

/-- DESIGN CHOICE (log 4), safe: the OPEN value `MAX_DUTY` of the machine at reset. -/
opaque Config.openMaxDuty : Word16

/-- DESIGN CHOICE (log 4), safe: the OPEN value `ADC_CH` of the machine at reset. -/
opaque Config.openAdcCh : Nat

/-- DESIGN CHOICE (log 4), safe: the OPEN value `SEED_BASE` of the machine at reset. -/
opaque Config.openSeedBase : Nat

/-- DESIGN CHOICE (log 4), safe: whether `STORAGE_ENDIAN` is big at reset. -/
opaque Config.openBigEndian : Bool

/-- DESIGN CHOICE (log 4), safe: the OPEN 128 frequencies of the machine at reset (20_memory.md R45). -/
opaque Config.openFreq : Nat → Word16

/-- The parameters of the machine at reset: each one an OPEN value. -/
def Config.unfixed : Config where
  srTotalUs := Config.openSrTotalUs
  srMinUs := Config.openSrMinUs
  pwmCh := Config.openPwmCh
  maxDuty := Config.openMaxDuty
  adcCh := Config.openAdcCh
  seedBase := Config.openSeedBase
  storageEndian := if Config.openBigEndian then .big else .little

/-- The frequency table of the machine at reset: 128 OPEN values. -/
def FreqTable.unfixed : FreqTable := Vector.ofFn fun i => Config.openFreq i.val

/-- DESIGN CHOICE (log 5), safe: an ADC sample that the environment has not fixed; any 16-bit value
(10_state.md R32). Applied to the free-value counter. -/
opaque Config.freeSample : Nat → Word16

/-- DESIGN CHOICE (log 5), safe: a boot-window word that the environment has not fixed; any 16-bit value
(20_memory.md R48). Applied to the free-value counter. -/
opaque Config.freeBootWord : Nat → Word16

/-- DESIGN CHOICE (log 6), safe: what a host read that may return any value returns (10_state.md R22, R30, R31).
Applied to the free-value counter. -/
opaque Config.freeRead : Nat → Word16

/-- DESIGN CHOICE (log 9), safe: `POS` after a completed run (10_state.md R38). Applied to the free-value counter. -/
opaque Config.freePos : Nat → Word16

/-- DESIGN CHOICE (log 9), safe: `CUR_SEQ` after a completed run (10_state.md R38). Applied to the free-value
counter. -/
opaque Config.freeSeqId : Nat → Byte

end Sys2Proof
end

