-- ==== Sys2Proof/Syntax.lean ====
section
/-! DEFINITION. The instructions: one constructor per row of spec/opcode_table.json, the four actions of the
Sequence Interpreter and the seven host commands (30_encoding.md R59, R70). -/

namespace Sys2Proof

/-- The eleven instructions. A command's operands stand in `ARG0` and `ARG1`, not in its code (R59). -/
inductive Instr where
  /-- `End` (42_sequence_interpreter.md R92). -/
  | endAct
  /-- `Wait(duration_ms)` (42_sequence_interpreter.md R93). -/
  | wait (durationMs : Word16)
  /-- `Note(index)` (42_sequence_interpreter.md R94). -/
  | note (index : Byte)
  /-- `Led(pattern)` (42_sequence_interpreter.md R95). -/
  | led (pattern : Byte)
  /-- `RUN` (45_host_commands.md R127). -/
  | run
  /-- `SR_UPDATE` (45_host_commands.md R129). -/
  | srUpdate
  /-- `TONE_LOOKUP` (45_host_commands.md R130). -/
  | toneLookup
  /-- `NEXT_ID` (45_host_commands.md R131). -/
  | nextId
  /-- `PRNG_INIT` (45_host_commands.md R132). -/
  | prngInit
  /-- `PRNG_ADVANCE` (45_host_commands.md R133). -/
  | prngAdvance
  /-- `PRNG_UPDATE` (45_host_commands.md R134). -/
  | prngUpdate
  deriving DecidableEq, Repr

/-- The two encoded formats (30_encoding.md R59): `act` is the 24-bit action word, `cmd` the 16-bit command
code. -/
inductive Format where
  | act
  | cmd
  deriving DecidableEq, Repr

/-- The format an instruction is encoded in (30_encoding.md R59). -/
def Instr.format : Instr → Format
  | .endAct => .act
  | .wait _ => .act
  | .note _ => .act
  | .led _ => .act
  | .run => .cmd
  | .srUpdate => .cmd
  | .toneLookup => .cmd
  | .nextId => .cmd
  | .prngInit => .cmd
  | .prngAdvance => .cmd
  | .prngUpdate => .cmd

end Sys2Proof
end

