-- ==== Sys2Proof/WellFormed.lean ====
section
/-! DEFINITION. What is well formed: an instruction in the place it stands in, an authored sequence, the sequence
store, the walk graph `WF(GRAPH)`, and the scalar parameters. Every operand value of every action is legal
(30_encoding.md R62 to R64), so an instruction can only be ill formed by standing in the wrong format. -/

namespace Sys2Proof

/-- An instruction is well formed in a place of format `f` when it is encoded in that format: actions stand in the
sequence store, commands are written to `CMD` (30_encoding.md R59). -/
def Instr.wfIn (f : Format) (i : Instr) : Bool := decide (i.format = f)

/-- An authored sequence (30_encoding.md R69): actions only, at most `2^IDX_W - 1` of them (20_memory.md R43). -/
def authoredSeqWf (is : List Instr) : Bool :=
  is.all (Instr.wfIn .act) && decide (is.length ≤ topPos.toNat)

/-- The sequence store: `NUM_SEQ` is 1 to 256 and each sequence has at most `2^IDX_W - 1` words
(00_scope.md R6, 20_memory.md R43). -/
def SeqStore.wf (st : SeqStore) : Bool :=
  decide (1 ≤ st.length) && decide (st.length ≤ 256) && st.all fun q => decide (q.length ≤ topPos.toNat)

/-- A node id reachable from node 0, the node whose id is 0 (20_memory.md R46 (c), log 19). -/
inductive Graph.Reach (g : Graph) : Byte → Prop where
  | start : Graph.Reach g 0
  | edge {n : Node} {e : Edge} : Graph.Reach g n.id → n ∈ g → e ∈ n.edges → Graph.Reach g e.target

/-- `WF(GRAPH)` as 20_memory.md R46 states it, (a) to (d). -/
structure Graph.WF (g : Graph) : Prop where
  /-- (a) node ids are unique. -/
  unique : (g.map Node.id).Nodup
  /-- (b) every weight is greater than 0. -/
  positive : ∀ n ∈ g, ∀ e ∈ n.edges, 0 < e.weight.toNat
  /-- (c) every node reachable from node 0 has at least one outgoing edge. -/
  outgoing : ∀ n ∈ g, Graph.Reach g n.id → n.edges ≠ []
  /-- (d) every node has at most `MAX_EDGES` edges. -/
  fanOut : ∀ n ∈ g, n.edges.length ≤ maxEdges

/-- The targets of the edges that leave the ids of `ids`. -/
def Graph.succs (g : Graph) (ids : List Byte) : List Byte :=
  (g.filter fun n => ids.contains n.id).flatMap fun n => n.edges.map Edge.target

/-- The ids reached from `ids` in at most `fuel` rounds. -/
def Graph.closure (g : Graph) : Nat → List Byte → List Byte
  | 0, ids => ids
  | fuel + 1, ids => Graph.closure g fuel ((ids ++ g.succs ids).dedup)

/-- The ids the build-time check takes as reachable from node 0: one round per node and one more. -/
def Graph.reachable (g : Graph) : List Byte := g.closure (g.length + 1) [0]

/-- The build-time check of `WF(GRAPH)` (20_memory.md R46): it also checks that `reachable` is closed under the
edges, so that what it accepts is well formed. -/
def Graph.check (g : Graph) : Bool :=
  decide (g.map Node.id).Nodup &&
  (g.all fun n => n.edges.all fun e => decide (0 < e.weight.toNat)) &&
  g.reachable.contains 0 &&
  ((g.succs g.reachable).all fun t => g.reachable.contains t) &&
  (g.all fun n => !(g.reachable.contains n.id) || !n.edges.isEmpty) &&
  (g.all fun n => decide (n.edges.length ≤ maxEdges))

/-- The sub-phase `w` fits the 32-bit argument of `wait_us` (00_scope.md R7, 40_shift_register.md R74, log 15). -/
def Config.wf (c : Config) : Bool := decide (c.srTotalUs / 27 < 2 ^ 32)

end Sys2Proof
end

