-- ==== Sys2Proof/Machine/State.lean ====
section
/-! DEFINITION. The state of the block, of the collaborators' visible state, of the read-only stores and of the
environment, as plain data (10_state.md, 20_memory.md), with the state right after reset. -/

namespace Sys2Proof.Machine

/-- The sequencer's control state (10_state.md R20). -/
inductive Phase where
  | idle
  | run
  | fault
  deriving DecidableEq, Repr

/-- The fault causes, in the order of their codes (60_exceptions.md R137). -/
inductive Cause where
  | noFault
  | illegalAction
  | indexOverflow
  | zeroTotal
  | prngUninit
  | prngReinit
  | cmdWhileBusy
  | illegalCmd
  | badSeq
  deriving DecidableEq, Repr

/-- Where a faulting action word was fetched: sequence id and position (60_exceptions.md R138). -/
structure FetchSite where
  seq : Byte
  pos : Word16
  deriving DecidableEq, Repr

/-- The model's fault reason (60_exceptions.md R138): the cause, and for `ILLEGAL_ACTION` and `INDEX_OVERFLOW` the
place of the fetched word. The hardware does not expose it. -/
structure FaultReason where
  cause : Cause
  site : Option FetchSite
  deriving DecidableEq, Repr

/-- The stored fields of `STATUS` (10_state.md R26). `STATUS[3]` is the `SEEDED` register itself. -/
structure Status where
  busy : Bool
  fault : Bool
  valid : Bool
  cause : Cause
  deriving DecidableEq, Repr

/-- The three output lines (10_state.md R32). -/
inductive Line where
  | data
  | clk
  | latch
  deriving DecidableEq, Repr

/-- A level of a line or of a bit outside the block: 0, 1 or `unknown` (10_state.md R34, R35). -/
inductive Level where
  | low
  | high
  | unknown
  deriving DecidableEq, Repr

/-- A value outside the block that may be `unknown` (10_state.md R36). -/
inductive Ext (α : Type) where
  | unknown
  | known (a : α)
  deriving DecidableEq, Repr

/-- The events of the trace (10_state.md R32). -/
inductive Event where
  | line (l : Line) (b : Bool)
  | delayMs (n : Word32)
  | delayUs (n : Word32)
  | pwmFreq (hz : Word16)
  | pwmDuty (ch : Nat) (v : Word16)
  | pwmEn (ch : Nat)
  | pwmDis (ch : Nat)
  | adc (v : Word16)
  | bootRd (k : Nat) (v : Word16)
  deriving DecidableEq, Repr

/-- Eight bits outside the block, each 0, 1 or `unknown`, bit 7 first (10_state.md R35). -/
structure Octet where
  b7 : Level
  b6 : Level
  b5 : Level
  b4 : Level
  b3 : Level
  b2 : Level
  b1 : Level
  b0 : Level
  deriving DecidableEq, Repr

/-- Eight `unknown` bits. -/
def Octet.unknown : Octet :=
  ⟨.unknown, .unknown, .unknown, .unknown, .unknown, .unknown, .unknown, .unknown⟩

/-- The external state the spec gives: line levels (10_state.md R34), the serial-in/parallel-out register (R35) and
the PWM tone source (R36). -/
structure Devices where
  data : Level
  clk : Level
  latch : Level
  shift : Octet
  out : Octet
  pwmFreq : Ext Word16
  pwmDuty : Ext Word16
  pwmEn : Level
  deriving DecidableEq, Repr

/-- The external state at power-on: everything `unknown` (10_state.md R41). -/
def Devices.powerOn : Devices where
  data := .unknown
  clk := .unknown
  latch := .unknown
  shift := Octet.unknown
  out := Octet.unknown
  pwmFreq := .unknown
  pwmDuty := .unknown
  pwmEn := .unknown

/-- The read-only stores (20_memory.md R42). They are element-addressed, not bytes (R49, log 1). No operation writes
them (10_state.md R37). -/
structure Memory where
  seqs : SeqStore
  freqTable : FreqTable
  graph : Graph
  deriving DecidableEq, Repr

/-- The form the stores keep: the sequence store is well formed (20_memory.md R43). The frequency table has its 128
entries by its type, and the block's rules hold for every graph (R46). -/
def Memory.wf (m : Memory) : Bool := m.seqs.wf

/-- The eight host register slots (10_state.md R21), in the order of their numbers 0 to 7 (`Slot.number`). -/
inductive Slot where
  | cmd
  | arg0
  | arg1
  | result
  | status
  | prng
  | reserved6
  | reserved7
  deriving DecidableEq, Repr

/-- What the world outside does to the block between two of its steps (log 12). -/
inductive HostInput where
  /-- The host writes a slot (10_state.md R21). -/
  | write (slot : Slot) (v : Word16)
  /-- The host reads a slot (45_host_commands.md R135). -/
  | read (slot : Slot)
  /-- The host lets the block take one step. -/
  | grant
  /-- The host polls `STATUS.BUSY` until it is 0: the block steps until then (70_reset_and_hazards.md R160). -/
  | await
  /-- The host's boot procedure drives a line low (70_reset_and_hazards.md R155, log 13). -/
  | driveLow (l : Line)
  /-- Reset: the device is power-cycled (70_reset_and_hazards.md R153). -/
  | powerCycle
  deriving DecidableEq, Repr

/-- The environment of the block: the MODEL's own fields, not the spec's. -/
structure Env where
  /-- The host's accesses still to come, in order (log 12). -/
  script : List HostInput
  /-- ADC samples the environment has already fixed, next first (log 5). -/
  adcIn : List Word16
  /-- Boot-window words the environment has already fixed, next first (log 5, log 24). -/
  bootIn : List Word16
  /-- The counter the opaque free values are applied to; each use advances it (log 5, log 28). -/
  fresh : Nat
  /-- What the host's reads returned, oldest first (log 25). -/
  readLog : List (Slot × Word16)
  deriving DecidableEq, Repr

/-- The machine. -/
structure State where
  /-- `PHASE` (10_state.md R20). -/
  phase : Phase
  /-- `SEEDED` (10_state.md R16). -/
  seeded : Bool
  /-- `PRNG` (10_state.md R15); no rule reads it while `SEEDED = 0` (log 7). -/
  prng : Word16
  /-- `POS`, the program counter (10_state.md R18); no rule reads it outside a run (log 8, log 9). -/
  pos : Word16
  /-- `CUR_SEQ` (10_state.md R19); no rule reads it outside a run (log 8, log 9). -/
  curSeq : Byte
  /-- `ARG0`, slot 1 (10_state.md R23). -/
  arg0 : Word16
  /-- `ARG1`, slot 2 (10_state.md R24). -/
  arg1 : Word16
  /-- `RESULT`, slot 3 (10_state.md R25). -/
  result : Word16
  /-- `STATUS`, slot 4 (10_state.md R26). -/
  status : Status
  /-- `TR`, the event trace, oldest event first (10_state.md R32). -/
  tr : List Event
  /-- The model's fault reason (60_exceptions.md R138). -/
  faultReason : Option FaultReason
  /-- The external state (10_state.md R34 to R36). -/
  dev : Devices
  /-- The read-only stores (20_memory.md R42). -/
  mem : Memory
  /-- The OPEN parameters (00_scope.md R6). -/
  cfg : Config
  /-- The environment. -/
  env : Env
  deriving DecidableEq, Repr

/-- Why the machine would stop. The spec's own faults are not here: each is a next state with `PHASE = FAULT`
(60_exceptions.md R139, R140, log 10). -/
inductive Fault where
  /-- Raised by `execNextId` if the cumulative scan met no running sum above `r`. 43_random_walk.md R107 says that
  cannot happen when the total is positive, which is when the scan is made; it only makes the scan total. Safe
  (log 11). -/
  | bucketScanFellThrough
  deriving DecidableEq, Repr

/-- Why the model would give an instruction no meaning. -/
inductive Refusal where
  /-- An instruction whose arm of `exec` has no meaning yet. No arm uses it. Safe. -/
  | notModelled (mnemonic : String)
  deriving DecidableEq, Repr

/-- The status bits after reset: `0x0000` (10_state.md R41). -/
def Status.reset : Status := ⟨false, false, false, .noFault⟩

/-- The stores of a machine into which nothing has been loaded: one empty sequence, no node, and an OPEN frequency
table. DESIGN CHOICE (log 3), unsafe. -/
def Memory.unloaded : Memory := ⟨[[]], FreqTable.unfixed, []⟩

/-- An environment that has fixed nothing: no host access, no draw. The counter's start is a DESIGN CHOICE
(log 28). -/
def Env.silent : Env := ⟨[], [], [], 0, []⟩

/-- The machine right after reset (10_state.md R41, 70_reset_and_hazards.md R152). `prng`, `pos` and `curSeq` hold
values the spec does not give: DESIGN CHOICE, unsafe (log 7, log 8). -/
def State.reset : State where
  phase := .idle
  seeded := false
  prng := 0x0000
  pos := 0x0000
  curSeq := 0x00
  arg0 := 0x0000
  arg1 := 0x0000
  result := 0x0000
  status := Status.reset
  tr := []
  faultReason := none
  dev := Devices.powerOn
  mem := Memory.unloaded
  cfg := Config.unfixed
  env := Env.silent

end Sys2Proof.Machine
end

