-- ==== Sys2Proof/Machine/Flags.lean ====
section
/-! DEFINITION. The `STATUS` bits: their word as the host reads it (10_state.md R26) and what sets each one (R27 to
R29). The block has no other flags (R39). -/

namespace Sys2Proof.Machine

/-- The code of a fault cause (60_exceptions.md R137). -/
def Cause.code : Cause → BitVec 4
  | .noFault => 0
  | .illegalAction => 1
  | .indexOverflow => 2
  | .zeroTotal => 3
  | .prngUninit => 4
  | .prngReinit => 5
  | .cmdWhileBusy => 6
  | .illegalCmd => 7
  | .badSeq => 8

/-- `STATUS` as a host read sees it: `CAUSE` in bits 11:8, `SEEDED`, `VALID`, `FAULT`, `BUSY` in bits 3 to 0, the
reserved bits 0 (10_state.md R26). -/
def statusWord (s : State) : Word16 :=
  (0#4 : BitVec 4) ++ s.status.cause.code ++ (0#4 : BitVec 4) ++ BitVec.ofBool s.seeded ++
    BitVec.ofBool s.status.valid ++ BitVec.ofBool s.status.fault ++ BitVec.ofBool s.status.busy

/-- Accepting a command: `STATUS.BUSY <- 1` (10_state.md R27, 45_host_commands.md R124). -/
def accept (s : State) : State := { s with status := { s.status with busy := true } }

/-- Completing with a result: `RESULT <- v`, `VALID <- 1`, `BUSY <- 0` (10_state.md R29, 45_host_commands.md
R126). -/
def completeWith (v : Word16) (s : State) : State :=
  { s with result := v, status := { s.status with valid := true, busy := false } }

/-- Completing without a result: `RESULT` unchanged, `VALID <- 0`, `BUSY <- 0` (10_state.md R29). -/
def completeVoid (s : State) : State :=
  { s with status := { s.status with valid := false, busy := false } }

end Sys2Proof.Machine
end

