-- ==== Sys2Proof/Decode.lean ====
section
/-! DEFINITION. The two decoders, total on every word and refusing by name, the encoder, and the machine-readable
opcode table (30_encoding.md). Every space is read in whole elements, so there is no byte order to undo
(20_memory.md R49, log 22). -/

namespace Sys2Proof

/-- An encoded instruction: a word of one of the two formats (30_encoding.md R59). -/
inductive Encoded where
  | action (w : ActionWord)
  | command (c : Word16)
  deriving DecidableEq, Repr

/-- Why a word decodes to no instruction. -/
inductive Reject where
  /-- `Illegal(w)` of 30_encoding.md R66 and R67; fetching it raises `ILLEGAL_ACTION`. -/
  | illegalAction (w : ActionWord)
  /-- A code outside `0x0001..0x0007` (30_encoding.md R70); writing it raises `ILLEGAL_CMD`. -/
  | illegalCommand (c : Word16)
  deriving DecidableEq, Repr

/-- `OP`, bits 23:16 of an action word (30_encoding.md R60). -/
def opField (w : ActionWord) : Byte := w.extractLsb' 16 8

/-- `PAYLOAD`, bits 15:0 of an action word (30_encoding.md R60). -/
def payloadField (w : ActionWord) : Word16 := w.extractLsb' 0 16

/-- Bits 15:8 of a payload or of an operand register. -/
def highByte (p : Word16) : Byte := p.extractLsb' 8 8

/-- Bits 7:0 of a payload or of an operand register. -/
def lowByte (p : Word16) : Byte := p.extractLsb' 0 8

/-- `decode` of 30_encoding.md R66. -/
def decodeAction (w : ActionWord) : Except Reject Instr :=
  if opField w = 0x00 ∧ payloadField w = 0x0000 then .ok .endAct
  else if opField w = 0x01 then .ok (.wait (payloadField w))
  else if opField w = 0x02 ∧ highByte (payloadField w) = 0x00 then .ok (.note (lowByte (payloadField w)))
  else if opField w = 0x03 ∧ highByte (payloadField w) = 0x00 then .ok (.led (lowByte (payloadField w)))
  else .error (.illegalAction w)

/-- The command codes of 30_encoding.md R70. -/
def decodeCommand (c : Word16) : Except Reject Instr :=
  if c = 0x0001 then .ok .run
  else if c = 0x0002 then .ok .srUpdate
  else if c = 0x0003 then .ok .toneLookup
  else if c = 0x0004 then .ok .nextId
  else if c = 0x0005 then .ok .prngInit
  else if c = 0x0006 then .ok .prngAdvance
  else if c = 0x0007 then .ok .prngUpdate
  else .error (.illegalCommand c)

/-- Decoding a word of either format. -/
def decode : Encoded → Except Reject Instr
  | .action w => decodeAction w
  | .command c => decodeCommand c

/-- An action word from its two fields (30_encoding.md R60). -/
def mkAction (op : Byte) (payload : Word16) : ActionWord := op ++ payload

/-- The word of an instruction (30_encoding.md R61 to R64, R70). -/
def encode : Instr → Encoded
  | .endAct => .action (mkAction 0x00 0x0000)
  | .wait d => .action (mkAction 0x01 d)
  | .note i => .action (mkAction 0x02 ((0x00 : Byte) ++ i))
  | .led p => .action (mkAction 0x03 ((0x00 : Byte) ++ p))
  | .run => .command 0x0001
  | .srUpdate => .command 0x0002
  | .toneLookup => .command 0x0003
  | .nextId => .command 0x0004
  | .prngInit => .command 0x0005
  | .prngAdvance => .command 0x0006
  | .prngUpdate => .command 0x0007

/-- The 24-bit word of an action, or none for a command. -/
def encodeAction? (i : Instr) : Option ActionWord :=
  match encode i with
  | .action w => some w
  | .command _ => none

/-- The 16-bit code of a command, or none for an action. -/
def encodeCommand? (i : Instr) : Option Word16 :=
  match encode i with
  | .action _ => none
  | .command c => some c

/-- The words of an authored sequence, or none if it holds a command (30_encoding.md R69). -/
def encodeSeq (is : List Instr) : Option (List ActionWord) := is.mapM encodeAction?

/-- Bits of a whole word of each format (30_encoding.md R68, R70). -/
def Format.bits : Format → Nat
  | .act => 24
  | .cmd => 16

/-- An encoded word as the number the opcode table compares with. -/
def Encoded.toNat : Encoded → Nat
  | .action w => w.toNat
  | .command c => c.toNat

/-- The format of an encoded word. -/
def Encoded.format : Encoded → Format
  | .action _ => .act
  | .command _ => .cmd

/-- One row of opcode_table.json (30_encoding.md R71): a word `w` of the row's format matches when
`w & mask = value`. -/
structure OpcodeRow where
  mnemonic : String
  format : Format
  value : Nat
  mask : Nat
  deriving DecidableEq, Repr

/-- opcode_table.json, row by row (30_encoding.md R71). -/
def opcodeTable : List OpcodeRow :=
  [⟨"End", .act, 0x000000, 0xFFFFFF⟩,
   ⟨"Wait", .act, 0x010000, 0xFF0000⟩,
   ⟨"Note", .act, 0x020000, 0xFFFF00⟩,
   ⟨"Led", .act, 0x030000, 0xFFFF00⟩,
   ⟨"RUN", .cmd, 0x0001, 0xFFFF⟩,
   ⟨"SR_UPDATE", .cmd, 0x0002, 0xFFFF⟩,
   ⟨"TONE_LOOKUP", .cmd, 0x0003, 0xFFFF⟩,
   ⟨"NEXT_ID", .cmd, 0x0004, 0xFFFF⟩,
   ⟨"PRNG_INIT", .cmd, 0x0005, 0xFFFF⟩,
   ⟨"PRNG_ADVANCE", .cmd, 0x0006, 0xFFFF⟩,
   ⟨"PRNG_UPDATE", .cmd, 0x0007, 0xFFFF⟩]

/-- The mnemonic of an instruction, as opcode_table.json spells it. -/
def Instr.mnemonic : Instr → String
  | .endAct => "End"
  | .wait _ => "Wait"
  | .note _ => "Note"
  | .led _ => "Led"
  | .run => "RUN"
  | .srUpdate => "SR_UPDATE"
  | .toneLookup => "TONE_LOOKUP"
  | .nextId => "NEXT_ID"
  | .prngInit => "PRNG_INIT"
  | .prngAdvance => "PRNG_ADVANCE"
  | .prngUpdate => "PRNG_UPDATE"

/-- Whether an encoded word matches a row (30_encoding.md R71). -/
def OpcodeRow.hits (r : OpcodeRow) (e : Encoded) : Bool :=
  decide (r.format = e.format) && (e.toNat &&& r.mask == r.value)

/-- The instruction this decoder reads from an instruction whose bits are `w`: a 24-bit action word, or a 16-bit
command code. The bits of each word are numbered as 00_scope.md R8 numbers them. -/
def decodeTableWord (nbits w : Nat) : Option Instr :=
  if nbits = 24 then (decode (.action (BitVec.ofNat 24 w))).toOption
  else if nbits = 16 then (decode (.command (BitVec.ofNat 16 w))).toOption
  else none

end Sys2Proof
end

