-- ==== Sys2Proof/Machine/Operands.lean ====
section
/-! DEFINITION. Operand assembly: which bits of `ARG0` and `ARG1` a command reads, and the zero extensions of the
operands (30_encoding.md R65, 10_state.md R23, R24). No operand is sign-extended, scaled or shifted. -/

namespace Sys2Proof.Machine

/-- `zext_32` of a 16-bit operand (30_encoding.md R65). -/
def zext32 (v : Word16) : Word32 := v.setWidth 32

/-- `zext_16` of an 8-bit result (45_host_commands.md R131). -/
def zext16 (b : Byte) : Word16 := b.setWidth 16

/-- `start_index`: all 16 bits of `ARG0` (10_state.md R23). -/
def startOperand (s : State) : Word16 := s.arg0

/-- `ARG0[7:0]`: the pattern, the note index or the node id (10_state.md R23). -/
def byteOperand (s : State) : Byte := lowByte s.arg0

/-- `ARG1[7:0]`: the sequence id (10_state.md R24). -/
def seqOperand (s : State) : Byte := lowByte s.arg1

/-- `NUM_SEQ` (00_scope.md R6): the number of sequences in the store. -/
def numSeq (m : Memory) : Nat := m.seqs.length

/-- The sub-phase `w = floor(SR_TOTAL_US / 27)` in microseconds (40_shift_register.md R74). -/
def subPhase (c : Config) : Nat := c.srTotalUs / 27

/-- The argument of `DelayUs(w)`: `w` on 32 bits (40_shift_register.md R73; it fits when `Config.wf`, log 15). -/
def subPhaseArg (c : Config) : Word32 := BitVec.ofNat 32 (subPhase c)

/-- Half of the maximum duty, rounded down (41_tone_selector.md R86). -/
def halfDuty (c : Config) : Word16 := BitVec.ofNat 16 (c.maxDuty.toNat / 2)

end Sys2Proof.Machine
end

