-- ==== Sys2Proof/Machine/Ops.lean ====
section
/-! DEFINITION. The shared operations: emitting events to the trace and to the devices that react to them, reading
the stores, drawing free inputs, taking a fault, and the power cycle, which is the only way out of one. -/

namespace Sys2Proof.Machine

/-! ### The devices outside the block -/

/-- The level a `set_high` or `set_low` call gives (10_state.md R34). -/
def Level.ofBool : Bool → Level
  | true => .high
  | false => .low

/-- The eight known bits of a pattern. -/
def Octet.ofPattern (p : Byte) : Octet where
  b7 := Level.ofBool (p.getLsbD 7)
  b6 := Level.ofBool (p.getLsbD 6)
  b5 := Level.ofBool (p.getLsbD 5)
  b4 := Level.ofBool (p.getLsbD 4)
  b3 := Level.ofBool (p.getLsbD 3)
  b2 := Level.ofBool (p.getLsbD 2)
  b1 := Level.ofBool (p.getLsbD 1)
  b0 := Level.ofBool (p.getLsbD 0)

/-- `{SHIFT[6:0], DATA}` (40_shift_register.md R79). -/
def Octet.shiftIn (o : Octet) (d : Level) : Octet :=
  ⟨o.b6, o.b5, o.b4, o.b3, o.b2, o.b1, o.b0, d⟩

/-- The level of a line (10_state.md R34). -/
def Devices.level (d : Devices) : Line → Level
  | .data => d.data
  | .clk => d.clk
  | .latch => d.latch

/-- A rising `CLK` edge shifts `DATA` in; an edge from `unknown` spoils `SHIFT`; no edge changes nothing
(40_shift_register.md R79). -/
def Devices.clkHigh (d : Devices) : Devices :=
  match d.clk with
  | .low => { d with shift := d.shift.shiftIn d.data, clk := .high }
  | .unknown => { d with shift := Octet.unknown, clk := .high }
  | .high => d

/-- A rising `LATCH` edge copies `SHIFT` to `OUT`; an edge from `unknown` spoils `OUT`; no edge changes nothing
(40_shift_register.md R79). -/
def Devices.latchHigh (d : Devices) : Devices :=
  match d.latch with
  | .low => { d with out := d.shift, latch := .high }
  | .unknown => { d with out := Octet.unknown, latch := .high }
  | .high => d

/-- How the devices react to one event: the lines (10_state.md R34), the serial-in/parallel-out register
(40_shift_register.md R79) and the PWM source (10_state.md R36). Every PWM event of the block carries `PWM_CH`
(R32), so the channel is not looked at (log 17). -/
def Devices.react (d : Devices) : Event → Devices
  | .line .data b => { d with data := Level.ofBool b }
  | .line .clk true => d.clkHigh
  | .line .clk false => { d with clk := .low }
  | .line .latch true => d.latchHigh
  | .line .latch false => { d with latch := .low }
  | .pwmFreq hz => { d with pwmFreq := .known hz }
  | .pwmDuty _ v => { d with pwmDuty := .known v }
  | .pwmEn _ => { d with pwmEn := .high }
  | .pwmDis _ => { d with pwmEn := .low }
  | .delayMs _ => d
  | .delayUs _ => d
  | .adc _ => d
  | .bootRd _ _ => d

/-- The host's boot procedure drives a line low (70_reset_and_hazards.md R155): an `unknown` level becomes 0. That
is no rising edge, so nothing shifts or latches. A level the block has driven stays the block's (10_state.md R34,
log 13). -/
def Devices.driveLow (l : Line) (d : Devices) : Devices :=
  match l, d.level l with
  | .data, .unknown => { d with data := .low }
  | .clk, .unknown => { d with clk := .low }
  | .latch, .unknown => { d with latch := .low }
  | _, _ => d

/-- Both stages of the external register spoiled by pulses shorter than it needs (70_reset_and_hazards.md R159). -/
def Devices.spoilRegister (d : Devices) : Devices :=
  { d with shift := Octet.unknown, out := Octet.unknown }

/-! ### The event trace -/

/-- `emit` of each event in order (00_scope.md R11, R12): the trace grows by them and the devices react. -/
def emit (evs : List Event) (s : State) : State :=
  { s with tr := s.tr ++ evs, dev := evs.foldl Devices.react s.dev }

/-! ### The read-only stores -/

/-- `SeqRead(s, i)` (20_memory.md R44): a position past the end reads the `End` word. A sequence id at or past
`NUM_SEQ`, which no run holds, reads as an empty sequence (log 2). -/
def seqRead (st : SeqStore) (s : Byte) (i : Word16) : ActionWord :=
  (st.getD s.toNat []).getD i.toNat 0x000000

/-- `FreqLookup(i)` where `i < 128`, and `None` above: `FreqSelect` (41_tone_selector.md R82 to R85). -/
def freqSelect (t : FreqTable) (index : Byte) : Option Word16 :=
  if h : index.toNat < 128 then some (t[index.toNat]'h) else none

/-! ### Draws -/

/-- `AdcSample()` (00_scope.md R11): the next sample, any 16-bit value (10_state.md R32). It is the one the
environment has fixed, else a free value (log 5). It emits `Adc(v)`. -/
def adcSample (s : State) : Word16 × State :=
  match s.env.adcIn with
  | v :: rest => (v, emit [.adc v] { s with env := { s.env with adcIn := rest } })
  | [] =>
    let v := Config.freeSample s.env.fresh
    (v, emit [.adc v] { s with env := { s.env with fresh := s.env.fresh + 1 } })

/-- The first `count` words the boot window gives (20_memory.md R48): those the environment has fixed, then free
values (log 5, log 24). -/
def bootWords (count : Nat) (e : Env) : List Word16 :=
  e.bootIn.take count ++ (List.range (count - e.bootIn.length)).map fun i => Config.freeBootWord (e.fresh + i)

/-- The environment after `count` boot-window reads. -/
def afterBootReads (count : Nat) (e : Env) : Env :=
  { e with bootIn := e.bootIn.drop count, fresh := e.fresh + (count - e.bootIn.length) }

/-- The events of boot-window reads that gave `ws`, in ascending word index (44_prng.md R117). -/
def bootEvents (ws : List Word16) : List Event := ws.zipIdx.map fun p => .bootRd p.2 p.1

/-- `BootRead(k)` for `k = 0, 1, ..., count - 1` (00_scope.md R11, 20_memory.md R48): the words read, with one
`BootRd(k, v)` event each. -/
def bootReadAll (count : Nat) (s : State) : List Word16 × State :=
  (bootWords count s.env, emit (bootEvents (bootWords count s.env)) { s with env := afterBootReads count s.env })

/-- One read that may return any value (10_state.md R22, R30, R31): a free value (log 6). -/
def anyRead (s : State) : Word16 × State :=
  (Config.freeRead s.env.fresh, { s with env := { s.env with fresh := s.env.fresh + 1 } })

/-! ### Taking a fault, and the way out of one -/

/-- `raise Fault(cause)` (60_exceptions.md R139): the phase becomes `FAULT`, `STATUS.FAULT` 1, `STATUS.CAUSE` the
cause, `BUSY` 0. `RESULT`, `VALID`, `POS`, the trace and the devices stay as they are: nothing is muted. The site is
the model-only part of the fault reason (R138). -/
def raiseFault (c : Cause) (site : Option FetchSite) (s : State) : State :=
  { s with
    phase := .fault
    status := { s.status with busy := false, fault := true, cause := c }
    faultReason := some ⟨c, site⟩ }

/-- Reset (70_reset_and_hazards.md R152, R153): every piece of block state takes its reset value and the external
state becomes `unknown`. The stores and parameters are fixed for the life of the block (10_state.md R37), and the
environment is not the block's (log 14). It is the only way out of `FAULT` (60_exceptions.md R140). -/
def powerCycle (s : State) : State :=
  { State.reset with mem := s.mem, cfg := s.cfg, env := s.env }

end Sys2Proof.Machine
end

