-- ==== Sys2Proof/Machine/Tone.lean ====
section
/-! DEFINITION. The Tone Selector (41_tone_selector.md) and the two instructions that invoke it: the action `Note`
and the command `TONE_LOOKUP`. -/

namespace Sys2Proof.Machine

/-- `ToneProgram(hz)`: frequency, then half of the maximum duty, then enable (41_tone_selector.md R86). -/
def toneProgram (hz : Word16) (s : State) : State :=
  emit [.pwmFreq hz, .pwmDuty s.cfg.pwmCh (halfDuty s.cfg), .pwmEn s.cfg.pwmCh] s

/-- `ToneMute()` (41_tone_selector.md R87). -/
def toneMute (s : State) : State := emit [.pwmDis s.cfg.pwmCh] s

/-- `Note(index)` (42_sequence_interpreter.md R94): an index of 128 or more does nothing. -/
def execNote (index : Byte) (s : State) : Host.Outcome State Fault Refusal :=
  match freqSelect s.mem.freqTable index with
  | some hz => .next (toneProgram hz s)
  | none => .next s

/-- `TONE_LOOKUP` (45_host_commands.md R130): the lookup alone, with no event. -/
def execToneLookup (s : State) : Host.Outcome State Fault Refusal :=
  match freqSelect s.mem.freqTable (byteOperand s) with
  | some f => .next (completeWith f s)
  | none => .next (completeVoid s)

end Sys2Proof.Machine
end

