-- ==== Sys2Proof/Machine/Interpreter.lean ====
section
/-! DEFINITION. The Sequence Interpreter's own instructions: the actions `End` and `Wait`, and the command `RUN`
that starts a run (42_sequence_interpreter.md). Fetching is in RunStep.lean. -/

namespace Sys2Proof.Machine

/-- The end of a run (42_sequence_interpreter.md R92): the resume index is `POS`, `PHASE <- IDLE`. `POS` and
`CUR_SEQ` are unspecified after it (10_state.md R38): free values (log 9). -/
def finishRun (s : State) : State :=
  let t := completeWith s.pos s
  { t with
    phase := .idle
    pos := Config.freePos s.env.fresh
    curSeq := Config.freeSeqId s.env.fresh
    env := { s.env with fresh := s.env.fresh + 1 } }

/-- `End` (42_sequence_interpreter.md R92): mute unconditionally, then report the resume index. -/
def execEndAct (s : State) : Host.Outcome State Fault Refusal := .next (finishRun (toneMute s))

/-- `Wait(duration_ms)` (42_sequence_interpreter.md R93). -/
def execWait (d : Word16) (s : State) : Host.Outcome State Fault Refusal :=
  .next (emit [.delayMs (zext32 d)] s)

/-- `RunStart(s, start)` (42_sequence_interpreter.md R89). -/
def runStart (q : Byte) (start : Word16) (s : State) : State :=
  { s with curSeq := q, pos := start, phase := .run }

/-- `RUN` (45_host_commands.md R127): `BAD_SEQ` for a sequence id at or past `NUM_SEQ`. -/
def execRun (s : State) : Host.Outcome State Fault Refusal :=
  if numSeq s.mem ≤ (seqOperand s).toNat then .next (raiseFault .badSeq none s)
  else .next (runStart (seqOperand s) (startOperand s) s)

end Sys2Proof.Machine
end

