-- ==== Sys2Proof/Machine/Prng.lean ====
section
/-! DEFINITION. The PRNG Subsystem (44_prng.md) and its three commands. -/

namespace Sys2Proof.Machine

/-- `xorshift16(x)` (44_prng.md R113): left shifts drop the bits above bit 15, the right shift is logical. -/
def xorshift16 (x : Word16) : Word16 :=
  let y := x ^^^ (x <<< 7)
  let z := y ^^^ (y >>> 9)
  z ^^^ (z <<< 8)

/-- `triple_mix(x)` (44_prng.md R114). -/
def tripleMix (x : Word16) : Word16 := xorshift16 (xorshift16 (xorshift16 x))

/-- `SEED_WORDS` (00_scope.md R6). -/
def seedWords : Nat := 1024

/-- `SEED_INIT` (00_scope.md R6). -/
def seedInit : Word16 := 0

/-- One step of the seed fold, wrapping on 16 bits (44_prng.md R117). -/
def foldWord (seed word : Word16) : Word16 := seed * 97 + word

/-- The seed fold over the boot-window words (44_prng.md R117). -/
def seedFold (ws : List Word16) : Word16 := ws.foldl foldWord seedInit

/-- Three noise draws, each folded into the seed as it is read (44_prng.md R117). -/
def foldNoise (seed : Word16) (s : State) : Word16 × State :=
  let r1 := adcSample s
  let r2 := adcSample r1.2
  let r3 := adcSample r2.2
  (seed ^^^ tripleMix r1.1 ^^^ tripleMix r2.1 ^^^ tripleMix r3.1, r3.2)

/-- Reporting the new `PRNG` value: every PRNG command ends so (45_host_commands.md R132 to R134). -/
def reportPrng (s : State) : State := completeWith s.prng s

/-- `PRNG_INIT` (45_host_commands.md R132) with `Init` (44_prng.md R117). -/
def execPrngInit (s : State) : Host.Outcome State Fault Refusal :=
  if s.seeded then .next (raiseFault .prngReinit none s)
  else
    let boot := bootReadAll seedWords s
    let noise := foldNoise (seedFold boot.1) boot.2
    .next (reportPrng { noise.2 with prng := noise.1, seeded := true })

/-- `PRNG_ADVANCE` (45_host_commands.md R133) with `Advance` (44_prng.md R116). -/
def execPrngAdvance (s : State) : Host.Outcome State Fault Refusal :=
  if s.seeded then .next (reportPrng { s with prng := tripleMix s.prng })
  else .next (raiseFault .prngUninit none s)

/-- `PRNG_UPDATE` (45_host_commands.md R134) with `Update` (44_prng.md R121): the check comes before the sample. -/
def execPrngUpdate (s : State) : Host.Outcome State Fault Refusal :=
  if s.seeded then
    let r := adcSample s
    .next (reportPrng { r.2 with prng := tripleMix (r.2.prng ^^^ (tripleMix r.1 &&& 0x000F)) })
  else .next (raiseFault .prngUninit none s)

end Sys2Proof.Machine
end

