-- ==== Sys2Proof/Machine/RandomWalk.lean ====
section
/-! DEFINITION. The Random-Walk Generator (43_random_walk.md) and its command `NEXT_ID`. -/

namespace Sys2Proof.Machine

/-- The first node, in declared order, whose id is `cur` (43_random_walk.md R101 step 1, R103). -/
def findNode (g : Graph) (cur : Byte) : Option Node := g.find? fun n => n.id == cur

/-- The sum of the weights, as an unbounded natural number (43_random_walk.md R104). -/
def totalWeight : List Edge → Nat
  | [] => 0
  | e :: es => e.weight.toNat + totalWeight es

/-- The cumulative-weight bucket scan (43_random_walk.md R101 step 5): the target of the first edge whose running
sum `upper` exceeds `r`. -/
def bucketScan (r : Nat) : Nat → List Edge → Option Byte
  | _, [] => none
  | upper, e :: es =>
    if r < upper + e.weight.toNat then some e.target else bucketScan r (upper + e.weight.toNat) es

/-- Steps 3 to 5 of `NextId` on a found node (43_random_walk.md R101). `PRNG_UNINIT` comes before the PRNG write,
`ZERO_TOTAL` after it (R109). -/
def walkFrom (n : Node) (s : State) : Host.Outcome State Fault Refusal :=
  if s.seeded then
    let t := { s with prng := tripleMix s.prng }
    if totalWeight n.edges = 0 then .next (raiseFault .zeroTotal none t)
    else
      match bucketScan (t.prng.toNat % totalWeight n.edges) 0 n.edges with
      | some target => .next (completeWith (zext16 target) t)
      | none => .fault .bucketScanFellThrough
  else .next (raiseFault .prngUninit none s)

/-- `NEXT_ID` (45_host_commands.md R131) with `NextId` (43_random_walk.md R101): an absent node gives its own id
back and touches nothing else (R102). -/
def execNextId (s : State) : Host.Outcome State Fault Refusal :=
  match findNode s.mem.graph (byteOperand s) with
  | none => .next (completeWith (zext16 (byteOperand s)) s)
  | some n => walkFrom n s

end Sys2Proof.Machine
end

