-- ==== Sys2Proof/Machine/ShiftRegister.lean ====
section
/-! DEFINITION. The Shift-Register Driver (40_shift_register.md) and the two instructions that invoke it: the action
`Led` and the command `SR_UPDATE`. -/

namespace Sys2Proof.Machine

/-- `Pulse(L)` (40_shift_register.md R73). -/
def pulse (w : Word32) (l : Line) : List Event :=
  [.delayUs w, .line l true, .delayUs w, .line l false, .delayUs w]

/-- The bit positions of one update, most significant first (40_shift_register.md R72). -/
def bitOrder : List Nat := [7, 6, 5, 4, 3, 2, 1, 0]

/-- The events of `SrUpdate(pattern)` in order (40_shift_register.md R72). -/
def srEvents (w : Word32) (p : Byte) : List Event :=
  (bitOrder.flatMap fun i => .line .data (p.getLsbD i) :: pulse w .clk) ++ pulse w .latch

/-- The external register after an update whose sub-phase is shorter than it needs (70_reset_and_hazards.md R159,
log 18). -/
def settleRegister (c : Config) (d : Devices) : Devices :=
  if subPhase c < c.srMinUs then d.spoilRegister else d

/-- `SrUpdate(pattern)` (40_shift_register.md R72). -/
def srUpdate (p : Byte) (s : State) : State :=
  let t := emit (srEvents (subPhaseArg s.cfg) p) s
  { t with dev := settleRegister s.cfg t.dev }

/-- `Led(pattern)` (42_sequence_interpreter.md R95). -/
def execLed (p : Byte) (s : State) : Host.Outcome State Fault Refusal := .next (srUpdate p s)

/-- `SR_UPDATE` (45_host_commands.md R129): the pattern is `ARG0[7:0]`; `VALID <- 0`, `RESULT` unchanged. -/
def execSrUpdate (s : State) : Host.Outcome State Fault Refusal :=
  .next (completeVoid (srUpdate (byteOperand s) s))

end Sys2Proof.Machine
end

