-- ==== Sys2Proof/Machine/Dispatch.lean ====
section
/-! DEFINITION. The meaning of each instruction, one arm per constructor. An action's meaning runs with `POS` already
advanced past it (42_sequence_interpreter.md R90); a command's meaning runs with the command accepted
(45_host_commands.md R124). `step` calls it in no other state (log 29). -/

namespace Sys2Proof.Machine

def exec (i : Instr) (s : State) : Host.Outcome State Fault Refusal :=
  match i with
  | .endAct => Sys2Proof.Machine.execEndAct s
  | .wait d => Sys2Proof.Machine.execWait d s
  | .note index => Sys2Proof.Machine.execNote index s
  | .led p => Sys2Proof.Machine.execLed p s
  | .run => Sys2Proof.Machine.execRun s
  | .srUpdate => Sys2Proof.Machine.execSrUpdate s
  | .toneLookup => Sys2Proof.Machine.execToneLookup s
  | .nextId => Sys2Proof.Machine.execNextId s
  | .prngInit => Sys2Proof.Machine.execPrngInit s
  | .prngAdvance => Sys2Proof.Machine.execPrngAdvance s
  | .prngUpdate => Sys2Proof.Machine.execPrngUpdate s

end Sys2Proof.Machine
end

