-- ==== Sys2Proof/Machine/RunStep.lean ====
section
/-! DEFINITION. One step of the Sequence Interpreter: fetch, advance, decode, act (42_sequence_interpreter.md R90). -/

namespace Sys2Proof.Machine

/-- The word at `POS` of the sequence being run (42_sequence_interpreter.md R90). -/
def fetchWord (s : State) : ActionWord := seqRead s.mem.seqs s.curSeq s.pos

/-- Where that word stands, for the fault reason (60_exceptions.md R138). -/
def fetchSite (s : State) : FetchSite := ⟨s.curSeq, s.pos⟩

/-- `POS <- POS + 1` (42_sequence_interpreter.md R90). -/
def advancePos (s : State) : State := { s with pos := s.pos + 1 }

/-- `RunStep` (42_sequence_interpreter.md R90): `INDEX_OVERFLOW` at the top position, before `POS` changes;
`ILLEGAL_ACTION` after the advance (60_exceptions.md R142). -/
def runStep (s : State) : Host.Outcome State Fault Refusal :=
  if s.pos = topPos then .next (raiseFault .indexOverflow (some (fetchSite s)) s)
  else
    match decodeAction (fetchWord s) with
    | .ok i => exec i (advancePos s)
    | .error _ => .next (raiseFault .illegalAction (some (fetchSite s)) (advancePos s))

/-- What the block does when nothing outside acts: one `RunStep` in `RUN`; in `IDLE` it waits for a command
(70_reset_and_hazards.md R152); in `FAULT` it executes no step (60_exceptions.md R140). -/
def blockStep (s : State) : Host.Outcome State Fault Refusal :=
  match s.phase with
  | .run => runStep s
  | .idle => .next s
  | .fault => .next s

end Sys2Proof.Machine
end

