-- ==== Sys2Proof/Machine/HostPort.lean ====
section
/-! DEFINITION. The host's side: writes and reads of the eight slots (10_state.md R21, 45_host_commands.md R124,
R135), and the turn that the block and the outside world take together (log 12). -/

namespace Sys2Proof.Machine

/-- The number of a slot (10_state.md R21). -/
def Slot.number : Slot → BitVec 3
  | .cmd => 0
  | .arg0 => 1
  | .arg1 => 2
  | .result => 3
  | .status => 4
  | .prng => 5
  | .reserved6 => 6
  | .reserved7 => 7

/-- The slot of a number, 0 to 7 (10_state.md R21). -/
def Slot.ofNumber (n : BitVec 3) : Slot :=
  if n = 0 then .cmd
  else if n = 1 then .arg0
  else if n = 2 then .arg1
  else if n = 3 then .result
  else if n = 4 then .status
  else if n = 5 then .prng
  else if n = 6 then .reserved6
  else .reserved7

/-- The host writes the slot of a number (10_state.md R21). -/
def writeAt (n : BitVec 3) (v : Word16) : HostInput := .write (Slot.ofNumber n) v

/-- The host reads the slot of a number (10_state.md R21). -/
def readAt (n : BitVec 3) : HostInput := .read (Slot.ofNumber n)

/-- `HostWriteCmd(c)` (45_host_commands.md R124): ignored in `FAULT`, then `CMD_WHILE_BUSY`, then `ILLEGAL_CMD`, then
the command itself, accepted. The write is the step that runs the command, so its operands are read there, once
(R125, log 21, log 23). -/
def hostWriteCmd (c : Word16) (s : State) : Host.Outcome State Fault Refusal :=
  if s.phase = .fault then .next s
  else if s.status.busy then .next (raiseFault .cmdWhileBusy none s)
  else
    match decodeCommand c with
    | .ok i => exec i (accept s)
    | .error _ => .next (raiseFault .illegalCmd none s)

/-- A host write of a slot: `CMD` starts a command, `ARG0` and `ARG1` take the value at any time, every other slot
ignores it (10_state.md R21 to R31, 45_host_commands.md R135). -/
def hostWrite (slot : Slot) (v : Word16) (s : State) : Host.Outcome State Fault Refusal :=
  match slot with
  | .cmd => hostWriteCmd v s
  | .arg0 => .next { s with arg0 := v }
  | .arg1 => .next { s with arg1 := v }
  | .result => .next s
  | .status => .next s
  | .prng => .next s
  | .reserved6 => .next s
  | .reserved7 => .next s

/-- The value a host read of a slot returns (10_state.md R21 to R31). `CMD`, the reserved slots, and `PRNG` before
seeding return any value. -/
def readSlot (slot : Slot) (s : State) : Word16 × State :=
  match slot with
  | .cmd => anyRead s
  | .arg0 => (s.arg0, s)
  | .arg1 => (s.arg1, s)
  | .result => (s.result, s)
  | .status => (statusWord s, s)
  | .prng => if s.seeded then (s.prng, s) else anyRead s
  | .reserved6 => anyRead s
  | .reserved7 => anyRead s

/-- A host read: no side effect on the block (45_host_commands.md R135); the host keeps the value (log 25). -/
def hostRead (slot : Slot) (s : State) : State :=
  let r := readSlot slot s
  { r.2 with env := { r.2.env with readLog := r.2.env.readLog ++ [(slot, r.1)] } }

/-- The rest of the host's script. -/
def withScript (script : List HostInput) (s : State) : State := { s with env := { s.env with script := script } }

/-- One access from outside, already taken off the script. -/
def serve (i : HostInput) (s : State) : Host.Outcome State Fault Refusal :=
  match i with
  | .write slot v => hostWrite slot v s
  | .read slot => .next (hostRead slot s)
  | .grant => blockStep s
  | .await => .next s
  | .driveLow l => .next { s with dev := s.dev.driveLow l }
  | .powerCycle => .next (powerCycle s)

/-- One turn of the machine (log 12): the next access from outside, between two steps of the block
(45_host_commands.md R126). With none left the block goes on by itself; while the host awaits, the block steps until
it is no longer busy (70_reset_and_hazards.md R160). -/
def turn (s : State) : Host.Outcome State Fault Refusal :=
  match s.env.script with
  | [] => blockStep s
  | .await :: rest => if s.status.busy then blockStep s else serve .await (withScript rest s)
  | i :: rest => serve i (withScript rest s)

/-- The word put where the first fetch of sequence 0 reads it. -/
def placeWord (w : ActionWord) : SeqStore → SeqStore
  | [] => [[w]]
  | [] :: qs => [w] :: qs
  | (_ :: ws) :: qs => (w :: ws) :: qs

/-- The control state forced to `p`, out of any run or fault, for an instruction to be placed (log 3). -/
def controlAt (p : Phase) (s : State) : State :=
  { s with
    phase := p
    status := { s.status with busy := decide (p = .run), fault := false, cause := .noFault }
    faultReason := none }

/-- A state in which the next step fetches and runs the action word `w`: a run of sequence 0 at position 0, whose
first word is `w` (log 3). -/
def placeAction (w : ActionWord) (s : State) : State :=
  let t := controlAt .run s
  { t with
    curSeq := 0x00
    pos := 0x0000
    mem := { s.mem with seqs := placeWord w s.mem.seqs }
    env := { s.env with script := .grant :: s.env.script } }

/-- A state in which the next step is the host's write of `c` to `CMD`, in `IDLE` (log 3). -/
def placeCommand (c : Word16) (s : State) : State :=
  let t := controlAt .idle s
  { t with env := { s.env with script := .write .cmd c :: s.env.script } }

end Sys2Proof.Machine
end

