-- ==== Sys2Proof/Machine/Step.lean ====
section
/-! DEFINITION. The step of the machine, and where it fetches its next instruction. -/

namespace Sys2Proof.Machine

/-- One step: the next turn of the block and the world outside (00_scope.md R5, R12). -/
def step (s : State) : Host.Outcome State Fault Refusal := turn s

/-- `s` with the instruction of `nbits` bits `w` placed where the next step fetches it: a 24-bit action word in the
sequence store, in a run; a 16-bit command code as the host's next write to `CMD` (log 3). -/
def State.withFetchWord (s : State) (nbits w : Nat) : State :=
  if nbits = 24 then placeAction (BitVec.ofNat 24 w) s else placeCommand (BitVec.ofNat 16 w) s

end Sys2Proof.Machine
end

