-- ==== Sys2Proof/Safety.lean ====
section
/-! DEFINITION. What counts as a safe run, and the spec's own descriptions that the statements compare the machine
with: the last level a trace gives a line, the event train of R75 written out, the actions between two positions,
and the invariant of the machine. -/

namespace Sys2Proof.Machine

/-! ### What a trace says about the devices -/

/-- The last level the trace gives a line, if any (10_state.md R34). -/
def lastLine (l : Line) (tr : List Event) : Option Bool :=
  tr.foldl (fun acc e => match e with | .line m b => if m = l then some b else acc | _ => acc) none

/-- The last frequency the trace sets, if any (10_state.md R36). -/
def lastPwmFreq (tr : List Event) : Option Word16 :=
  tr.foldl (fun acc e => match e with | .pwmFreq hz => some hz | _ => acc) none

/-- The last duty the trace sets, if any (10_state.md R36). -/
def lastPwmDuty (tr : List Event) : Option Word16 :=
  tr.foldl (fun acc e => match e with | .pwmDuty _ v => some v | _ => acc) none

/-- The last enable or disable of the trace, if any (10_state.md R36). -/
def lastPwmEn (tr : List Event) : Option Bool :=
  tr.foldl (fun acc e => match e with | .pwmEn _ => some true | .pwmDis _ => some false | _ => acc) none

/-- Whether an event is a boot-window read. -/
def Event.isBootRd : Event → Bool
  | .bootRd _ _ => true
  | _ => false

/-- Whether an event is a mute. -/
def Event.isPwmDis : Event → Bool
  | .pwmDis _ => true
  | _ => false

/-- A value that is `unknown` until the trace gives one. -/
def extOf {α : Type} : Option α → Ext α
  | none => .unknown
  | some a => .known a

/-- A level that is `unknown` until the trace gives one. -/
def levelOf : Option Bool → Level
  | none => .unknown
  | some b => Level.ofBool b

/-- A line's level is the last one the trace gives it; before that it is `unknown`, or 0 where the host's boot
procedure has driven it low (10_state.md R34, 70_reset_and_hazards.md R155, log 13). -/
def lineAgrees (l : Line) (s : State) : Prop :=
  match lastLine l s.tr with
  | some b => s.dev.level l = Level.ofBool b
  | none => s.dev.level l = .unknown ∨ s.dev.level l = .low

/-! ### The invariant of the machine -/

/-- What every step keeps, from every state that has it. -/
structure Coherent (s : State) : Prop where
  /-- Between steps `BUSY` is 1 exactly in `RUN` (10_state.md R26). -/
  busyRun : s.status.busy = decide (s.phase = .run)
  /-- `FAULT` is 1 exactly in `PHASE = FAULT` (10_state.md R26). -/
  faultPhase : s.status.fault = decide (s.phase = .fault)
  /-- `CAUSE` is 0 exactly when `FAULT` is 0 (10_state.md R26). -/
  causeZero : s.status.cause = .noFault ↔ s.phase ≠ .fault
  /-- The fault reason carries the recorded cause (60_exceptions.md R138). -/
  reasonCause : s.phase = .fault → s.faultReason.map FaultReason.cause = some s.status.cause
  /-- Out of `FAULT` there is no fault reason (60_exceptions.md R137). -/
  noReason : s.phase ≠ .fault → s.faultReason = none
  /-- The reason carries a place exactly for the two faults of a fetch (60_exceptions.md R138). -/
  reasonSite : ∀ r, s.faultReason = some r →
    (r.site.isSome = true ↔ r.cause = .illegalAction ∨ r.cause = .indexOverflow)
  /-- In a run `CUR_SEQ` names a sequence of the store (45_host_commands.md R127). -/
  runSeq : s.phase = .run → s.curSeq.toNat < s.mem.seqs.length
  /-- The stores keep their form (20_memory.md R43). -/
  memForm : s.mem.wf = true
  /-- The lines follow the trace (10_state.md R34). -/
  lines : ∀ l, lineAgrees l s
  /-- Between steps `CLK` and `LATCH` are not 1 (40_shift_register.md R77). -/
  clockLow : s.dev.clk ≠ .high ∧ s.dev.latch ≠ .high
  /-- The PWM source follows the trace (10_state.md R36). -/
  pwm : s.dev.pwmFreq = extOf (lastPwmFreq s.tr) ∧ s.dev.pwmDuty = extOf (lastPwmDuty s.tr) ∧
    s.dev.pwmEn = levelOf (lastPwmEn s.tr)
  /-- The boot window has been read once, whole, exactly if the PRNG is seeded (20_memory.md R48). -/
  bootOnce : s.tr.countP Event.isBootRd = bif s.seeded then seedWords else 0
  /-- No tone sounds between runs (70_reset_and_hazards.md R163). -/
  quiet : s.phase = .idle → s.dev.pwmEn ≠ .high

/-! ### The driver, as the spec writes it out -/

/-- The six events of one bit (40_shift_register.md R75). -/
def bitTrain (w : Word32) (b : Bool) : List Event :=
  [.line .data b, .delayUs w, .line .clk true, .delayUs w, .line .clk false, .delayUs w]

/-- The 53 events of one update, as 40_shift_register.md R75 lists them. -/
def srTrain (w : Word32) (p : Byte) : List Event :=
  bitTrain w (p.getLsbD 7) ++ bitTrain w (p.getLsbD 6) ++ bitTrain w (p.getLsbD 5) ++ bitTrain w (p.getLsbD 4) ++
  bitTrain w (p.getLsbD 3) ++ bitTrain w (p.getLsbD 2) ++ bitTrain w (p.getLsbD 1) ++ bitTrain w (p.getLsbD 0) ++
  [.delayUs w, .line .latch true, .delayUs w, .line .latch false, .delayUs w]

/-- What the register holds after an update: `SHIFT` (40_shift_register.md R80), from the level `CLK` had before. -/
def shiftAfter (p : Byte) (clk : Level) : Octet :=
  if clk = .unknown then { Octet.ofPattern p with b7 := .unknown } else Octet.ofPattern p

/-- What one update leaves outside the block: the lines (40_shift_register.md R77), the external register (R80, and
70_reset_and_hazards.md R159 where the sub-phase is too short) and the PWM source, untouched. -/
structure DriverLeaves (p : Byte) (c : Config) (d d' : Devices) : Prop where
  data : d'.data = Level.ofBool (p.getLsbD 0)
  clk : d'.clk = .low
  latch : d'.latch = .low
  pwmFreq : d'.pwmFreq = d.pwmFreq
  pwmDuty : d'.pwmDuty = d.pwmDuty
  pwmEn : d'.pwmEn = d.pwmEn
  /-- Pulses wide enough: `SHIFT` holds the pattern, but for bit 7 where `CLK` was `unknown`. -/
  shift : c.srMinUs ≤ c.srTotalUs / 27 → d.clk ≠ .high → d'.shift = shiftAfter p d.clk
  /-- Pulses wide enough: `OUT` shows `SHIFT`, but nothing is known where `LATCH` was `unknown`. -/
  out : c.srMinUs ≤ c.srTotalUs / 27 → d.clk ≠ .high → d.latch ≠ .high →
    d'.out = if d.latch = .unknown then Octet.unknown else shiftAfter p d.clk
  /-- Pulses too short: nothing is known. -/
  spoiled : c.srTotalUs / 27 < c.srMinUs → d'.shift = Octet.unknown ∧ d'.out = Octet.unknown

/-! ### A run, as the spec describes it -/

/-- The events an action appends (42_sequence_interpreter.md R92 to R95). A command stands in no sequence. -/
def actionTrace (m : Memory) (c : Config) : Instr → List Event
  | .endAct => [.pwmDis c.pwmCh]
  | .wait d => [.delayMs (d.setWidth 32)]
  | .note i =>
    if h : i.toNat < 128 then
      [.pwmFreq (m.freqTable[i.toNat]'h), .pwmDuty c.pwmCh (BitVec.ofNat 16 (c.maxDuty.toNat / 2)), .pwmEn c.pwmCh]
    else []
  | .led p => srTrain (BitVec.ofNat 32 (c.srTotalUs / 27)) p
  | .run => []
  | .srUpdate => []
  | .toneLookup => []
  | .nextId => []
  | .prngInit => []
  | .prngAdvance => []
  | .prngUpdate => []

/-- The word at a position of a sequence, and the implicit `End` past its end (20_memory.md R44). -/
def wordAt (m : Memory) (q : Byte) (i : Nat) : ActionWord := (m.seqs.getD q.toNat []).getD i 0x000000

/-- The events of the actions at `count` positions from `start` on, in order. -/
def runTrace (m : Memory) (c : Config) (q : Byte) (start : Nat) : Nat → List Event
  | 0 => []
  | n + 1 =>
    runTrace m c q start n ++
      match decodeAction (wordAt m q (start + n)) with
      | .ok i => actionTrace m c i
      | .error _ => []

/-- Position `k` is the first one from `start` on that holds an `End`, and every position before it holds an action
(42_sequence_interpreter.md R96). -/
structure EndsAt (m : Memory) (q : Byte) (start k : Nat) : Prop where
  le : start ≤ k
  below : k < 65535
  isEnd : decodeAction (wordAt m q k) = .ok .endAct
  before : ∀ j, start ≤ j → j < k → ∃ i, decodeAction (wordAt m q j) = .ok i ∧ i ≠ .endAct

/-- Position `k` is the first one from `start` on that holds no action, and every position before it holds an action
other than `End` (42_sequence_interpreter.md R96). -/
structure BreaksAt (m : Memory) (q : Byte) (start k : Nat) : Prop where
  le : start ≤ k
  below : k < 65535
  illegal : ∃ e, decodeAction (wordAt m q k) = .error e
  before : ∀ j, start ≤ j → j < k → ∃ i, decodeAction (wordAt m q j) = .ok i ∧ i ≠ .endAct

/-- The length of the sequence being run, 0 for none (20_memory.md R43). -/
def seqLen (m : Memory) (q : Byte) : Nat := (m.seqs.getD q.toNat []).length

/-! ### Safe runs -/

/-- A step is safe when it answers a next state that is not in `FAULT` (60_exceptions.md R140). -/
def stepSafe (s : State) : Prop := ∃ t, step s = .next t ∧ t.phase ≠ .fault

end Sys2Proof.Machine
end

