-- ==== Sys2Proof/Certificates/Slice0/Obligations.lean ====
section
/-! DEFINITION. The statements for the provers. Each docstring names the rule of spec/ it comes from. Every statement
is about every state, so about every sequence store, graph, table, parameter, script and draw. -/

open Sys2Proof Sys2Proof.Machine

/-! ### Encoding -/

/-- 30_encoding.md R61 to R66, R70: decoding and encoding are each other's inverse, so every instruction has one
word, every word at most one instruction, and no bit is dropped. -/
def Obligations.DecodeIsInverseOfEncode : Prop :=
  ∀ (i : Instr) (e : Encoded), decode e = .ok i ↔ encode i = e

/-- 30_encoding.md R61 to R64: the four action words, field by field, at every operand value. -/
def Obligations.ActionWordsDecode : Prop :=
  decode (.action 0x000000) = .ok .endAct ∧
  (∀ d : BitVec 16, decode (.action ((0x01 : BitVec 8) ++ d)) = .ok (.wait d)) ∧
  (∀ i : BitVec 8, decode (.action ((0x02 : BitVec 8) ++ (0x00 : BitVec 8) ++ i)) = .ok (.note i)) ∧
  (∀ (i : BitVec 8) (s : State), 128 ≤ i.toNat → exec (.note i) s = .next s) ∧
  (∀ p : BitVec 8, decode (.action ((0x03 : BitVec 8) ++ (0x00 : BitVec 8) ++ p)) = .ok (.led p))

/-- 30_encoding.md R67: exactly the words of (a), (b) and (c) are illegal, and fetching one in a run raises
`ILLEGAL_ACTION` with `POS` advanced. -/
def Obligations.IllegalActionWords : Prop :=
  (∀ w : BitVec 24, (∃ x, decode (.action w) = .error x) ↔
    (4 ≤ (w.extractLsb' 16 8).toNat ∨
      (w.extractLsb' 16 8 = 0x00 ∧ w.extractLsb' 0 16 ≠ 0x0000) ∨
      ((w.extractLsb' 16 8 = 0x02 ∨ w.extractLsb' 16 8 = 0x03) ∧ w.extractLsb' 8 8 ≠ 0x00))) ∧
  (∀ (s : State) x, s.phase = .run → s.env.script = [] → s.pos ≠ 0xFFFF →
    decode (.action (fetchWord s)) = .error x →
    step s = .next (raiseFault .illegalAction (some ⟨s.curSeq, s.pos⟩) { s with pos := s.pos + 1 }))

/-- 30_encoding.md R70: the seven command codes, and every other code is illegal: writing one to an idle block
raises `ILLEGAL_CMD`. -/
def Obligations.CommandCodes : Prop :=
  decode (.command 0x0001) = .ok .run ∧ decode (.command 0x0002) = .ok .srUpdate ∧
  decode (.command 0x0003) = .ok .toneLookup ∧ decode (.command 0x0004) = .ok .nextId ∧
  decode (.command 0x0005) = .ok .prngInit ∧ decode (.command 0x0006) = .ok .prngAdvance ∧
  decode (.command 0x0007) = .ok .prngUpdate ∧
  (∀ c : BitVec 16, (∃ x, decode (.command c) = .error x) ↔ c.toNat = 0 ∨ 8 ≤ c.toNat) ∧
  (∀ (s : State) (c : BitVec 16), s.phase ≠ .fault → s.status.busy = false → c.toNat = 0 ∨ 8 ≤ c.toNat →
    hostWrite .cmd c s = .next (raiseFault .illegalCmd none s))

/-- 30_encoding.md R71: a word matches a row of the opcode table exactly when it decodes, then one row only, and that
row is its instruction's. -/
def Obligations.OpcodeTableAgreesWithDecoder : Prop :=
  ∀ e : Encoded, (opcodeTable.filter fun r => r.hits e).map OpcodeRow.mnemonic =
    match decode e with
    | .ok i => [i.mnemonic]
    | .error _ => []

/-- 30_encoding.md R69, 20_memory.md R44: the words of an authored sequence, read back at a position inside it,
decode to the action authored there, and every position from its end on reads `End`. -/
def Obligations.AuthoredSequenceReadsBack : Prop :=
  ∀ (is : List Instr) (m : Memory) (q : BitVec 8) (ws : List (BitVec 24)), encodeSeq is = some ws →
    m.seqs[q.toNat]? = some ws →
    (∀ (p : BitVec 16) (i : Instr), is[p.toNat]? = some i → decode (.action (seqRead m.seqs q p)) = .ok i) ∧
    (∀ p : BitVec 16, is.length ≤ p.toNat → decode (.action (seqRead m.seqs q p)) = .ok .endAct)

/-- 30_encoding.md R61 to R64, R67, R70: a few words written out (a sanity statement). -/
def Obligations.SampleWordsDecode : Prop :=
  decode (.action 0x0101F4) = .ok (.wait 500) ∧ decode (.action 0x020045) = .ok (.note 69) ∧
  decode (.action 0x0300A5) = .ok (.led 0xA5) ∧ decode (.action 0x020100) = .error (.illegalAction 0x020100) ∧
  decode (.action 0x008000) = .error (.illegalAction 0x008000) ∧ decode (.command 0x0004) = .ok .nextId ∧
  decode (.command 0x0100) = .error (.illegalCommand 0x0100)

/-! ### A step runs the decoded instruction -/

/-- 42_sequence_interpreter.md R90: in a run, a step of the block is the meaning of the word fetched at `POS`, with
`POS` advanced by one first. At the top position it faults with `INDEX_OVERFLOW` before `POS` changes, whatever the
word; an illegal word faults with `ILLEGAL_ACTION` after the advance. With nothing from outside, after the host's
grant, or while the host awaits. That a grant is an entry taken off a script, and that an await stays there while the
block is busy, is the model's choice (log 12). -/
def Obligations.RunStepRunsTheFetchedAction : Prop :=
  ∀ s u : State, s.phase = .run →
    (s.env.script = [] ∧ u = s ∨
      (∃ rest, s.env.script = .grant :: rest ∧ u = { s with env := { s.env with script := rest } }) ∨
      (∃ rest, s.env.script = .await :: rest ∧ s.status.busy = true ∧ u = s)) →
    (s.pos = 0xFFFF → step s = .next (raiseFault .indexOverflow (some ⟨s.curSeq, 0xFFFF⟩) u)) ∧
    (∀ i, s.pos ≠ 0xFFFF → decode (.action (seqRead s.mem.seqs s.curSeq s.pos)) = .ok i →
      step s = exec i { u with pos := s.pos + 1 }) ∧
    (∀ x, s.pos ≠ 0xFFFF → decode (.action (seqRead s.mem.seqs s.curSeq s.pos)) = .error x →
      step s = .next (raiseFault .illegalAction (some ⟨s.curSeq, s.pos⟩) { u with pos := s.pos + 1 }))

/-- 45_host_commands.md R124: a host write to `CMD` is ignored in `FAULT`; else it faults with `CMD_WHILE_BUSY` while
the block is busy, whatever the code; else with `ILLEGAL_CMD` for an illegal code; else it runs the command of that
code with `BUSY` set, on the operands as they stand. That the write is an entry taken off a script is the model's
choice (log 12). -/
def Obligations.CommandWriteRunsTheCommand : Prop :=
  ∀ (s u : State) (c : BitVec 16) (rest : List HostInput),
    s.env.script = .write .cmd c :: rest → u = { s with env := { s.env with script := rest } } →
    (s.phase = .fault → step s = .next u) ∧
    (s.phase ≠ .fault → s.status.busy = true → step s = .next (raiseFault .cmdWhileBusy none u)) ∧
    (s.phase ≠ .fault → s.status.busy = false → ¬ (1 ≤ c.toNat ∧ c.toNat ≤ 7) →
      step s = .next (raiseFault .illegalCmd none u)) ∧
    (∀ i, s.phase ≠ .fault → s.status.busy = false → decode (.command c) = .ok i →
      step s = exec i { u with status := { s.status with busy := true } })

/-- 60_exceptions.md R139: taking a fault changes the phase, three fields of `STATUS` and the model's fault reason,
and nothing else. A step that takes one leaves `RESULT`, `VALID`, the trace and everything outside the block as they
were: it appends no event and mutes nothing. -/
def Obligations.RaisingAFault : Prop :=
  (∀ (c : Cause) (x : Option FetchSite) (s : State),
    raiseFault c x s = { s with
      phase := .fault
      status := ⟨false, true, s.status.valid, c⟩
      faultReason := some ⟨c, x⟩ }) ∧
  (∀ s t : State, s.phase ≠ .fault → step s = .next t → t.phase = .fault →
    t.result = s.result ∧ t.status.valid = s.status.valid ∧ t.status.busy = false ∧ t.status.fault = true ∧
    t.status.cause ≠ .noFault ∧ t.tr = s.tr ∧ t.dev = s.dev)

/-! ### The four actions -/

/-- 42_sequence_interpreter.md R92: `End`, the word `0x000000`, mutes, reports the position after it, and ends the
run; `POS` and `CUR_SEQ` are unspecified afterwards (10_state.md R38): some values. An implicit `End`, at or past the
end of the sequence, does the same and reports its position plus one. -/
def Obligations.EndMutesAndReports : Prop :=
  decode (.action 0x000000) = .ok .endAct ∧
  (∀ s : State, ∃ p q n, exec .endAct s = .next { s with
    phase := .idle
    pos := p
    curSeq := q
    result := s.pos
    status := ⟨false, s.status.fault, true, s.status.cause⟩
    tr := s.tr ++ [.pwmDis s.cfg.pwmCh]
    dev := { s.dev with pwmEn := .low }
    env := { s.env with fresh := n } }) ∧
  (∀ s : State, s.phase = .run → s.env.script = [] → seqLen s.mem s.curSeq ≤ s.pos.toNat → s.pos.toNat < 65535 →
    ∃ t, step s = .next t ∧ t.phase = .idle ∧ t.result.toNat = s.pos.toNat + 1 ∧ t.status.valid = true ∧
      t.status.busy = false ∧ t.tr = s.tr ++ [.pwmDis s.cfg.pwmCh])

/-- 42_sequence_interpreter.md R93: `Wait`, the word with `OP = 0x01`, appends one delay of its zero-extended
duration, for every duration, and changes nothing else. -/
def Obligations.WaitAppendsItsDelay : Prop :=
  ∀ (d : BitVec 16) (s : State), decode (.action ((0x01 : BitVec 8) ++ d)) = .ok (.wait d) ∧
    exec (.wait d) s = .next { s with tr := s.tr ++ [.delayMs (d.setWidth 32)] }

/-- 42_sequence_interpreter.md R94, 41_tone_selector.md R82 to R86: an index below 128 programs frequency, half duty
and enable, in this order, index 0 included; any other index changes nothing. -/
def Obligations.NoteProgramsTheTone : Prop :=
  ∀ (i : BitVec 8) (s : State),
    decode (.action ((0x02 : BitVec 8) ++ (0x00 : BitVec 8) ++ i)) = .ok (.note i) ∧
    (∀ h : i.toNat < 128, exec (.note i) s = .next { s with
      tr := s.tr ++ [.pwmFreq (s.mem.freqTable[i.toNat]'h),
        .pwmDuty s.cfg.pwmCh (BitVec.ofNat 16 (s.cfg.maxDuty.toNat / 2)), .pwmEn s.cfg.pwmCh]
      dev := { s.dev with
        pwmFreq := .known (s.mem.freqTable[i.toNat]'h)
        pwmDuty := .known (BitVec.ofNat 16 (s.cfg.maxDuty.toNat / 2))
        pwmEn := .high } }) ∧
    (128 ≤ i.toNat → exec (.note i) s = .next s)

/-- 42_sequence_interpreter.md R95, 40_shift_register.md R72 to R80, 70_reset_and_hazards.md R159: `Led` sends the 53
events of R75, leaves the lines, the register and the PWM source as the rules say, and changes nothing else. The
delays carry `w` on 32 bits; that its higher bits are dropped where it does not fit is the model's choice (log 15). -/
def Obligations.LedSendsThePattern : Prop :=
  ∀ (p : BitVec 8) (s : State), ∃ d,
    decode (.action ((0x03 : BitVec 8) ++ (0x00 : BitVec 8) ++ p)) = .ok (.led p) ∧ DriverLeaves p s.cfg s.dev d ∧
    exec (.led p) s = .next { s with
      tr := s.tr ++ srTrain (BitVec.ofNat 32 (s.cfg.srTotalUs / 27)) p
      dev := d }

/-! ### The seven commands -/

/-- 45_host_commands.md R127, 42_sequence_interpreter.md R89: `RUN` starts at `ARG0` in sequence `ARG1[7:0]`, or
faults with `BAD_SEQ` where there is no such sequence. -/
def Obligations.RunStartsOrFaults : Prop :=
  decode (.command 0x0001) = .ok .run ∧
  ∀ s : State,
    ((s.arg1.setWidth 8).toNat < s.mem.seqs.length →
      exec .run s = .next { s with curSeq := s.arg1.setWidth 8, pos := s.arg0, phase := .run }) ∧
    (s.mem.seqs.length ≤ (s.arg1.setWidth 8).toNat → exec .run s = .next (raiseFault .badSeq none s))

/-- 45_host_commands.md R129: `SR_UPDATE` sends the pattern `ARG0[7:0]`, clears `VALID` and `BUSY`, keeps `RESULT`.
The delays carry `w` on 32 bits; that its higher bits are dropped where it does not fit is the model's choice (log
15). -/
def Obligations.SrUpdateSendsThePattern : Prop :=
  decode (.command 0x0002) = .ok .srUpdate ∧
  ∀ s : State, ∃ d, DriverLeaves (s.arg0.setWidth 8) s.cfg s.dev d ∧
    exec .srUpdate s = .next { s with
      tr := s.tr ++ srTrain (BitVec.ofNat 32 (s.cfg.srTotalUs / 27)) (s.arg0.setWidth 8)
      dev := d
      status := ⟨false, s.status.fault, false, s.status.cause⟩ }

/-- 45_host_commands.md R130, 41_tone_selector.md R82: `TONE_LOOKUP` reports the table entry, or clears `VALID` and
keeps `RESULT`; it emits nothing. -/
def Obligations.ToneLookupReportsTheEntry : Prop :=
  decode (.command 0x0003) = .ok .toneLookup ∧
  ∀ s : State,
    (∀ h : (s.arg0.setWidth 8).toNat < 128, exec .toneLookup s = .next { s with
      result := s.mem.freqTable[(s.arg0.setWidth 8).toNat]'h
      status := ⟨false, s.status.fault, true, s.status.cause⟩ }) ∧
    (128 ≤ (s.arg0.setWidth 8).toNat → exec .toneLookup s = .next { s with
      status := ⟨false, s.status.fault, false, s.status.cause⟩ })

/-- 43_random_walk.md R102: where no node has the id `ARG0[7:0]`, `NEXT_ID` reports that id and changes neither
`PRNG` nor anything else, seeded or not. -/
def Obligations.NextIdOfAbsentNode : Prop :=
  ∀ s : State, (∀ n ∈ s.mem.graph, n.id ≠ s.arg0.setWidth 8) →
    exec .nextId s = .next { s with
      result := (s.arg0.setWidth 8).setWidth 16
      status := ⟨false, s.status.fault, true, s.status.cause⟩ }

/-- 43_random_walk.md R101, R103, R105, R109, 45_host_commands.md R131: `NEXT_ID` step by step, on the first node in
declared order whose id is `ARG0[7:0]`: unseeded it faults with `PRNG_UNINIT` before any write; seeded it keeps the
mixed state as `r_raw`; a zero total faults with `ZERO_TOTAL` after that write; else it reports the target of the
edge whose running sums enclose `r_raw mod total`. It emits nothing. With no such node it reports the id itself. -/
def Obligations.NextIdFollowsItsSteps : Prop :=
  decode (.command 0x0004) = .ok .nextId ∧
  (∀ s : State, (∀ n ∈ s.mem.graph, n.id ≠ s.arg0.setWidth 8) →
    exec .nextId s = .next { s with
      result := (s.arg0.setWidth 8).setWidth 16
      status := ⟨false, s.status.fault, true, s.status.cause⟩ }) ∧
  (∀ (s : State) (before after : Graph) (n : Node),
    s.mem.graph = before ++ n :: after → (∀ m ∈ before, m.id ≠ s.arg0.setWidth 8) → n.id = s.arg0.setWidth 8 →
    (s.seeded = false → exec .nextId s = .next (raiseFault .prngUninit none s)) ∧
    (s.seeded = true → totalWeight n.edges = 0 →
      exec .nextId s = .next (raiseFault .zeroTotal none { s with prng := tripleMix s.prng })) ∧
    (∀ (lower upper : List Edge) (e : Edge), s.seeded = true → n.edges = lower ++ e :: upper →
      totalWeight lower ≤ (tripleMix s.prng).toNat % totalWeight n.edges →
      (tripleMix s.prng).toNat % totalWeight n.edges < totalWeight lower + e.weight.toNat →
      exec .nextId s = .next { s with
        prng := tripleMix s.prng
        result := e.target.setWidth 16
        status := ⟨false, s.status.fault, true, s.status.cause⟩ }))

/-- 43_random_walk.md R101, R107: on a found node, seeded and with a positive total, `NEXT_ID` always completes, with
the target of one of the node's edges of positive weight. -/
def Obligations.NextIdAlwaysPicksAnEdge : Prop :=
  ∀ (s : State) (n : Node), s.mem.graph.find? (fun m => m.id == s.arg0.setWidth 8) = some n →
    s.seeded = true → 0 < totalWeight n.edges →
    ∃ e ∈ n.edges, 0 < e.weight.toNat ∧ exec .nextId s = .next { s with
      prng := tripleMix s.prng
      result := e.target.setWidth 16
      status := ⟨false, s.status.fault, true, s.status.cause⟩ }

/-- 44_prng.md R117, 45_host_commands.md R132: an unseeded `PRNG_INIT` reads `SEED_WORDS` boot words in ascending
order and then three samples, folds them, and reports the state. Each word and each sample that the environment has
fixed is the one read in its place, however many it has fixed, and is used up: that is the model's way to say where a
draw comes from (log 5, log 24), and no rule's. Nothing else changes. A second `PRNG_INIT` faults with `PRNG_REINIT`
and reads nothing. -/
def Obligations.PrngInitFoldsTheDraws : Prop :=
  decode (.command 0x0005) = .ok .prngInit ∧
  (∀ s : State, s.seeded = true → exec .prngInit s = .next (raiseFault .prngReinit none s)) ∧
  ∀ s : State, s.seeded = false → ∃ (ws : List (BitVec 16)) (a1 a2 a3 v : BitVec 16) (env : Env),
    ws.length = 1024 ∧
    v = ws.foldl (fun seed word => seed * 97 + word) 0 ^^^ tripleMix a1 ^^^ tripleMix a2 ^^^ tripleMix a3 ∧
    s.env.bootIn.take 1024 <+: ws ∧ env.bootIn = s.env.bootIn.drop 1024 ∧
    (∀ b, s.env.adcIn[0]? = some b → a1 = b) ∧ (∀ b, s.env.adcIn[1]? = some b → a2 = b) ∧
    (∀ b, s.env.adcIn[2]? = some b → a3 = b) ∧ env.adcIn = s.env.adcIn.drop 3 ∧
    env.script = s.env.script ∧ env.readLog = s.env.readLog ∧
    exec .prngInit s = .next { s with
      prng := v
      seeded := true
      result := v
      status := ⟨false, s.status.fault, true, s.status.cause⟩
      tr := s.tr ++ ((List.range 1024).map fun k => .bootRd k (ws.getD k 0)) ++ [.adc a1, .adc a2, .adc a3]
      env := env }

/-- 44_prng.md R116, 45_host_commands.md R133: `PRNG_ADVANCE` mixes the state three times and reports it; unseeded it
faults with `PRNG_UNINIT`. -/
def Obligations.PrngAdvanceMixesTheState : Prop :=
  decode (.command 0x0006) = .ok .prngAdvance ∧
  ∀ s : State,
    (s.seeded = true → exec .prngAdvance s = .next { s with
      prng := xorshift16 (xorshift16 (xorshift16 s.prng))
      result := xorshift16 (xorshift16 (xorshift16 s.prng))
      status := ⟨false, s.status.fault, true, s.status.cause⟩ }) ∧
    (s.seeded = false → exec .prngAdvance s = .next (raiseFault .prngUninit none s))

/-- 44_prng.md R121, 45_host_commands.md R134: `PRNG_UPDATE` takes one sample, folds its mixed low nibble in, mixes
and reports; unseeded it faults with `PRNG_UNINIT` before the sample. A sample that the environment has fixed is the
one taken and is used up: the model's way to say where a draw comes from (log 5), and no rule's. -/
def Obligations.PrngUpdateFoldsOneSample : Prop :=
  decode (.command 0x0007) = .ok .prngUpdate ∧
  ∀ s : State,
    (s.seeded = true → ∃ (a : BitVec 16) (env : Env),
      (∀ b rest, s.env.adcIn = b :: rest → a = b ∧ env.adcIn = rest) ∧
      env.script = s.env.script ∧ env.bootIn = s.env.bootIn ∧ env.readLog = s.env.readLog ∧
      exec .prngUpdate s = .next { s with
        prng := tripleMix (s.prng ^^^ (tripleMix a &&& 0x000F))
        result := tripleMix (s.prng ^^^ (tripleMix a &&& 0x000F))
        status := ⟨false, s.status.fault, true, s.status.cause⟩
        tr := s.tr ++ [.adc a]
        env := env }) ∧
    (s.seeded = false → exec .prngUpdate s = .next (raiseFault .prngUninit none s))

/-! ### The host port -/

/-- 10_state.md R26: the bits of `STATUS`, its reserved bits 0, and the cause codes of 60_exceptions.md R137. -/
def Obligations.StatusWordLayout : Prop :=
  (∀ s : State, (statusWord s).getLsbD 0 = s.status.busy ∧ (statusWord s).getLsbD 1 = s.status.fault ∧
    (statusWord s).getLsbD 2 = s.status.valid ∧ (statusWord s).getLsbD 3 = s.seeded ∧
    (statusWord s).extractLsb' 4 4 = 0 ∧ (statusWord s).extractLsb' 8 4 = s.status.cause.code ∧
    (statusWord s).extractLsb' 12 4 = 0) ∧
  [Cause.noFault, .illegalAction, .indexOverflow, .zeroTotal, .prngUninit, .prngReinit, .cmdWhileBusy, .illegalCmd,
    .badSeq].map (fun c => c.code.toNat) = [0, 1, 2, 3, 4, 5, 6, 7, 8]

/-- 45_host_commands.md R135: a host read changes nothing of the block, at any time; it returns `ARG0`, `ARG1`,
`RESULT`, `STATUS`, and `PRNG` once seeded; from the other slots, some value. Host writes of `ARG0` and `ARG1` take at
any time; host writes of every other slot but `CMD` are ignored. That an access is an entry taken off a script, that a
read is kept in a log and that it may move the counter of the free values is the model's own (log 12, log 25, log
28). -/
def Obligations.HostAccessesOfTheSlots : Prop :=
  (∀ (s : State) (slot : Slot) (rest : List HostInput), s.env.script = .read slot :: rest →
    ∃ (v : BitVec 16) (n : Nat),
      step s = .next { s with
        env := { s.env with script := rest, fresh := n, readLog := s.env.readLog ++ [(slot, v)] } } ∧
      (slot = .arg0 → v = s.arg0) ∧ (slot = .arg1 → v = s.arg1) ∧ (slot = .result → v = s.result) ∧
      (slot = .status → v = statusWord s) ∧ (slot = .prng → s.seeded = true → v = s.prng)) ∧
  (∀ (s : State) (v : BitVec 16) (rest : List HostInput) (slot : Slot), s.env.script = .write slot v :: rest →
    (slot = .arg0 → step s = .next { s with arg0 := v, env := { s.env with script := rest } }) ∧
    (slot = .arg1 → step s = .next { s with arg1 := v, env := { s.env with script := rest } }) ∧
    (slot = .result ∨ slot = .status ∨ slot = .prng ∨ slot = .reserved6 ∨ slot = .reserved7 →
      step s = .next { s with env := { s.env with script := rest } }))

/-- 10_state.md R21: the slots are numbered 0 to 7 as its table says, one to one, and an access moves 16 bits. A write
of slot 0 is a write of `CMD`, of slots 1 and 2 it stores `ARG0` and `ARG1`, of slots 3 to 7 it is ignored. A read of
slots 1 to 4 returns `ARG0`, `ARG1`, `RESULT`, `STATUS`, of slot 5 `PRNG` once seeded, and it touches no register. That
an access is an entry of the script and a read an entry of the read log is the model's own (log 12, log 25). -/
def Obligations.SlotNumbersFollowTheTable : Prop :=
  [Slot.cmd, .arg0, .arg1, .result, .status, .prng, .reserved6, .reserved7].map (fun x => x.number.toNat) =
    [0, 1, 2, 3, 4, 5, 6, 7] ∧
  (∀ n, (Slot.ofNumber n).number = n) ∧ (∀ x : Slot, Slot.ofNumber x.number = x) ∧
  (∀ (s u : State) (n : BitVec 3) (v : BitVec 16) (rest : List HostInput), s.env.script = writeAt n v :: rest →
    u = { s with env := { s.env with script := rest } } →
    (n = 0 → step s = hostWriteCmd v u) ∧
    (n = 1 → step s = .next { u with arg0 := v }) ∧
    (n = 2 → step s = .next { u with arg1 := v }) ∧
    (3 ≤ n.toNat → step s = .next u)) ∧
  (∀ (s : State) (n : BitVec 3) (rest : List HostInput), s.env.script = readAt n :: rest →
    ∃ (v : BitVec 16) (k : Nat),
      step s = .next { s with
        env := { s.env with
          script := rest, fresh := k, readLog := s.env.readLog ++ [(Slot.ofNumber n, v)] } } ∧
      (n = 1 → v = s.arg0) ∧ (n = 2 → v = s.arg1) ∧ (n = 3 → v = s.result) ∧ (n = 4 → v = statusWord s) ∧
      (n = 5 → s.seeded = true → v = s.prng))

/-- 70_reset_and_hazards.md R153, 10_state.md R41: a power cycle, from any state, leaves every register that R41
gives a value at that value, the trace empty and everything outside unknown, and keeps the stores and parameters
(10_state.md R37). That it is an entry taken off a script (log 12), and that the draws, the counter and the read log
survive it (log 14), is the model's choice. -/
def Obligations.PowerCycleResets : Prop :=
  ∀ (s : State) (rest : List HostInput), s.env.script = .powerCycle :: rest →
    ∃ t, step s = .next t ∧ t.phase = .idle ∧ statusWord t = 0x0000 ∧ t.seeded = false ∧ t.arg0 = 0x0000 ∧
      t.arg1 = 0x0000 ∧ t.result = 0x0000 ∧ t.tr = [] ∧ t.faultReason = none ∧ t.dev = Devices.powerOn ∧
      t.mem = s.mem ∧ t.cfg = s.cfg ∧ t.env = { s.env with script := rest }

/-- 10_state.md R41: the values the spec gives for reset. `PRNG` has none: reading it inside faults, and a host read
returns any value. What stands for that value is the model's choice: the first free value (log 6), from the counter
that starts at 0 (log 28), kept in the read log (log 25). -/
def Obligations.ResetValues : Prop :=
  State.reset.phase = .idle ∧ statusWord State.reset = 0x0000 ∧ State.reset.seeded = false ∧
  State.reset.arg0 = 0x0000 ∧ State.reset.arg1 = 0x0000 ∧ State.reset.result = 0x0000 ∧ State.reset.tr = [] ∧
  (∀ l, State.reset.dev.level l = .unknown) ∧ State.reset.dev.shift = Octet.unknown ∧
  State.reset.dev.out = Octet.unknown ∧ State.reset.dev.pwmFreq = .unknown ∧ State.reset.dev.pwmDuty = .unknown ∧
  State.reset.dev.pwmEn = .unknown ∧
  exec .prngAdvance State.reset = .next (raiseFault .prngUninit none State.reset) ∧
  exec .prngUpdate State.reset = .next (raiseFault .prngUninit none State.reset) ∧
  (∀ n : Node, walkFrom n State.reset = .next (raiseFault .prngUninit none State.reset)) ∧
  hostRead .prng State.reset = { State.reset with env := ⟨[], [], [], 1, [(.prng, Config.freeRead 0)]⟩ }

/-- 60_exceptions.md R140, 45_host_commands.md R135: in `FAULT` the block does nothing of its own. A step other than a
power cycle changes at most what the host itself acts on: `ARG0` or `ARG1` that it writes, its script, its reads (with
the counter of the free values they return), and a line that its boot procedure drives. That drive makes an unknown
level low and moves no other level, no other line, neither the external register nor the PWM source (the boot drive is
the model's choice, log 13; the script, the counter and the read log are the model's own, log 12, log 25, log 28). The
draws still to come stay. A write to `CMD` is ignored; a read works; a power cycle leaves `FAULT`. -/
def Obligations.FaultIsTerminal : Prop :=
  (∀ (s : State) (c : BitVec 16) (rest : List HostInput), s.phase = .fault → s.env.script = .write .cmd c :: rest →
    step s = .next { s with env := { s.env with script := rest } }) ∧
  (∀ (s : State) (rest : List HostInput), s.phase = .fault → s.env.script = .read .status :: rest →
    step s = .next { s with
      env := { s.env with script := rest, readLog := s.env.readLog ++ [(.status, statusWord s)] } }) ∧
  (∀ (s : State) (rest : List HostInput), s.phase = .fault → s.env.script = .powerCycle :: rest →
    ∃ t, step s = .next t ∧ t.phase = .idle) ∧
  ∀ s t : State, s.phase = .fault → s.env.script.head? ≠ some .powerCycle → step s = .next t →
    t = { s with arg0 := t.arg0, arg1 := t.arg1, dev := t.dev, env := t.env } ∧
    (t.arg0 = s.arg0 ∨ s.env.script.head? = some (.write .arg0 t.arg0)) ∧
    (t.arg1 = s.arg1 ∨ s.env.script.head? = some (.write .arg1 t.arg1)) ∧
    (t.dev = s.dev ∨ ∃ l, s.env.script.head? = some (.driveLow l)) ∧
    (∀ l, s.env.script.head? = some (.driveLow l) →
      t.dev.level l = (if s.dev.level l = .unknown then .low else s.dev.level l) ∧
      ∀ m, m ≠ l → t.dev.level m = s.dev.level m) ∧
    t.env.adcIn = s.env.adcIn ∧ t.env.bootIn = s.env.bootIn ∧
    (t.env.readLog = s.env.readLog ∨ ∃ slot v, s.env.script.head? = some (.read slot) ∧
      t.env.readLog = s.env.readLog ++ [(slot, v)]) ∧
    t.dev.shift = s.dev.shift ∧ t.dev.out = s.dev.out ∧ t.dev.pwmFreq = s.dev.pwmFreq ∧
    t.dev.pwmDuty = s.dev.pwmDuty ∧ t.dev.pwmEn = s.dev.pwmEn

/-! ### The whole machine -/

/-- 10_state.md R41, 70_reset_and_hazards.md R152: the invariant holds right after reset, of a machine with any
well-formed sequence store, any table, graph and parameters, and any environment; so at `State.reset` too. -/
def Obligations.InvariantHoldsAtReset : Prop :=
  Coherent State.reset ∧
  ∀ (m : Memory) (c : Config) (e : Env), m.wf = true → Coherent { State.reset with mem := m, cfg := c, env := e }

/-- Every step keeps the invariant, from every state that has it: `STATUS` agrees with `PHASE`, the fault reason with
the cause, a run stays in the store, the stores keep their form, the lines and the PWM source follow the trace, the
clocks stay low between steps, the boot window is read once, and no tone sounds between runs. Two clauses are the
model's reading: a line the trace has not driven is unknown, or low after the host's boot drive (log 13; R34 alone says
unknown), and `BUSY` is 1 between steps exactly in `RUN` (log 23). -/
def Obligations.EveryStepKeepsTheInvariant : Prop :=
  ∀ s t : State, Coherent s → step s = .next t → Coherent t

/-- 70_reset_and_hazards.md R165: no operation of the block hangs: every step of every state answers a next state. -/
def Obligations.EveryStepCompletes : Prop := ∀ s : State, ∃ t, step s = .next t

/-- 42_sequence_interpreter.md R96, R97: from every start there is a first `End`, at most at `max(start, len)`. With
nothing from outside, a run whose first `End` is at `k`, below the top and with actions before it, takes
`k - start + 1` steps, performs exactly those actions in order, mutes once as its last event, reports `k + 1`, and
leaves `PRNG` and the operands alone. The delays of a `Led` carry `w` on 32 bits; that its higher bits are
dropped where it does not fit is the model's choice (log 15). -/
def Obligations.RunPerformsItsActions : Prop :=
  (∀ (m : Memory) (q : BitVec 8) (start : Nat), ∃ k, start ≤ k ∧ k ≤ max start (seqLen m q) ∧
    decodeAction (wordAt m q k) = .ok .endAct ∧
    ∀ j, start ≤ j → j < k → decodeAction (wordAt m q j) ≠ .ok .endAct) ∧
  ∀ (s : State) (k : Nat), s.phase = .run → s.env.script = [] → EndsAt s.mem s.curSeq s.pos.toNat k →
    ∃ t, Sys2Proof.core.run (k - s.pos.toNat + 1) s = .next t ∧
      t.tr = s.tr ++ runTrace s.mem s.cfg s.curSeq s.pos.toNat (k - s.pos.toNat) ++ [.pwmDis s.cfg.pwmCh] ∧
      (runTrace s.mem s.cfg s.curSeq s.pos.toNat (k - s.pos.toNat)).countP Event.isPwmDis = 0 ∧
      t.phase = .idle ∧ t.result.toNat = k + 1 ∧ t.status = ⟨false, s.status.fault, true, s.status.cause⟩ ∧
      t.prng = s.prng ∧ t.seeded = s.seeded ∧ t.arg0 = s.arg0 ∧ t.arg1 = s.arg1

/-- 42_sequence_interpreter.md R96, 60_exceptions.md R139: a run that meets an illegal word at `k`, with actions
before it, performs exactly those actions and faults there, unmuted. The delays of a `Led` carry `w` on 32 bits; that
its higher bits are dropped where it does not fit is the model's choice (log 15). -/
def Obligations.RunFaultsAtAnIllegalWord : Prop :=
  ∀ (s : State) (k : Nat), s.phase = .run → s.env.script = [] → BreaksAt s.mem s.curSeq s.pos.toNat k →
    ∃ t, Sys2Proof.core.run (k - s.pos.toNat + 1) s = .next t ∧
      t.tr = s.tr ++ runTrace s.mem s.cfg s.curSeq s.pos.toNat (k - s.pos.toNat) ∧
      t.phase = .fault ∧ t.faultReason = some ⟨.illegalAction, some ⟨s.curSeq, BitVec.ofNat 16 k⟩⟩ ∧
      t.pos.toNat = k + 1 ∧ t.result = s.result ∧ t.status = ⟨false, true, s.status.valid, .illegalAction⟩

/-- 42_sequence_interpreter.md R96, R100, 60_exceptions.md R139: a run with an action other than `End` at every
position up to the top performs them all and then faults with `INDEX_OVERFLOW`, unmuted. The delays of a `Led` carry
`w` on 32 bits; that its higher bits are dropped where it does not fit is the model's choice (log 15). -/
def Obligations.RunOverflowsAtTheTop : Prop :=
  ∀ s : State, s.phase = .run → s.env.script = [] →
    (∀ j, s.pos.toNat ≤ j → j < 65535 → ∃ i, decodeAction (wordAt s.mem s.curSeq j) = .ok i ∧ i ≠ .endAct) →
    ∃ t, Sys2Proof.core.run (65535 - s.pos.toNat + 1) s = .next t ∧
      t.tr = s.tr ++ runTrace s.mem s.cfg s.curSeq s.pos.toNat (65535 - s.pos.toNat) ∧
      t.phase = .fault ∧ t.faultReason = some ⟨.indexOverflow, some ⟨s.curSeq, 0xFFFF⟩⟩ ∧
      t.pos = 0xFFFF ∧ t.result = s.result ∧ t.status = ⟨false, true, s.status.valid, .indexOverflow⟩

/-- 70_reset_and_hazards.md R165, 42_sequence_interpreter.md R96: with nothing from outside, every run, of any store,
ends within `max(start, len) - start + 1` steps. -/
def Obligations.EveryRunEnds : Prop :=
  ∀ s : State, s.phase = .run → s.env.script = [] →
    ∃ n t, n ≤ max s.pos.toNat (seqLen s.mem s.curSeq) - s.pos.toNat + 1 ∧ Sys2Proof.core.run n s = .next t ∧
      t.phase ≠ .run

/-- 10_state.md R37, 20_memory.md R51: no step of any kind writes a store or a parameter. -/
def Obligations.NoStepWritesAStore : Prop :=
  ∀ s t : State, step s = .next t → t.mem = s.mem ∧ t.cfg = s.cfg

/-- 10_state.md R32, 70_reset_and_hazards.md R153: the trace only grows, but for a power cycle, which empties it. -/
def Obligations.TraceOnlyGrows : Prop :=
  ∀ s t : State, step s = .next t →
    (s.env.script.head? = some .powerCycle → t.tr = []) ∧
    (s.env.script.head? ≠ some .powerCycle → ∃ evs, t.tr = s.tr ++ evs)

/-- 10_state.md R15, R16: `PRNG` changes only by a power cycle or a host write of one of the codes of `PRNG_INIT`,
`PRNG_ADVANCE`, `PRNG_UPDATE` and `NEXT_ID` to `CMD`; `SEEDED` is set only by `PRNG_INIT` and cleared only by a power
cycle. -/
def Obligations.OnlyItsCommandsWriteThePrng : Prop :=
  ∀ s t : State, step s = .next t → s.env.script.head? ≠ some .powerCycle →
    (t.prng ≠ s.prng → ∃ c : BitVec 16, s.env.script.head? = some (.write .cmd c) ∧ 4 ≤ c.toNat ∧ c.toNat ≤ 7) ∧
    (s.seeded = true → t.seeded = true) ∧
    (s.seeded = false → t.seeded = true → s.env.script.head? = some (.write .cmd 0x0005))

/-- 45_host_commands.md R125: the operands of a command are latched when it is accepted: during a run, other values
in `ARG0` and `ARG1` change nothing of any step the block takes but those two registers themselves. -/
def Obligations.RunIgnoresTheOperandRegisters : Prop :=
  ∀ (s : State) (a b : BitVec 16), s.phase = .run →
    (s.env.script = [] ∨ s.env.script.head? = some .grant ∨ s.env.script.head? = some .await) →
    ∃ t, step s = .next t ∧ step { s with arg0 := a, arg1 := b } = .next { t with arg0 := a, arg1 := b }

/-- The reset value of `PRNG` is the model's choice (log 7, the spec gives none); no step can tell it: from two states
that differ only in an unseeded `PRNG`, a step leads to the same state, but for a `PRNG` that is still unseeded. -/
def Obligations.UnseededPrngIsUnobservable : Prop :=
  ∀ (s : State) (v : BitVec 16), s.seeded = false →
    ∃ t t', step s = .next t ∧ step { s with prng := v } = .next t' ∧ t = { t' with prng := t.prng } ∧
      (t.seeded = true → t = t')

/-- 10_state.md R18, R19, R38: outside a run no step reads `POS` or `CUR_SEQ`, whose values there are the model's choice
(log 8, log 9): from two states that differ only there,
a step leads to states that differ at most there, and to the same state where a run has started. -/
def Obligations.PositionIsUnobservableOutsideRuns : Prop :=
  ∀ (s : State) (p : BitVec 16) (q : BitVec 8), s.phase ≠ .run →
    ∃ t t', step s = .next t ∧ step { s with pos := p, curSeq := q } = .next t' ∧
      t = { t' with pos := t.pos, curSeq := t.curSeq } ∧ (t.phase = .run → t = t')

/-! ### The shift-register driver -/

/-- 40_shift_register.md R75: the events of one update are the 53 that the rule lists: 8 on `DATA`, 16 on `CLK`, 2 on
`LATCH` and 27 delays of `w`, and `27 w` is within the budget. -/
def Obligations.UpdateIsTheListedTrain : Prop :=
  (∀ (w : BitVec 32) (p : BitVec 8), srEvents w p = srTrain w p ∧ (srEvents w p).length = 53 ∧
    (srEvents w p).countP (fun e => decide (e = .line .data true ∨ e = .line .data false)) = 8 ∧
    (srEvents w p).countP (fun e => decide (e = .line .clk true ∨ e = .line .clk false)) = 16 ∧
    (srEvents w p).countP (fun e => decide (e = .line .latch true ∨ e = .line .latch false)) = 2 ∧
    (srEvents w p).countP (fun e => decide (e = .delayUs w)) = 27) ∧
  (∀ c : Config, 27 * subPhase c ≤ c.srTotalUs)

/-- 40_shift_register.md R79, R80, R81: as the device model of R79 reacts to the events of one update, `OUT` keeps the
previous pattern through the first 49, changes at most at the 50th, the latch edge, all bits at once, and not after
it; from low `CLK` and `LATCH` it shows the new pattern from then on. This speaks of that reaction alone: where the
pulses are shorter than `SR_MIN_US`, 70_reset_and_hazards.md R159 leaves `OUT` unknown after the update, which the model
applies after the 53 events (log 18; `DriverLeaves` in LedSendsThePattern and SrUpdateSendsThePattern). -/
def Obligations.OutputsChangeOnlyAtTheLatch : Prop :=
  ∀ (w : BitVec 32) (p : BitVec 8) (d : Devices) (n : Nat),
    (srEvents w p)[2]? = some (.line .clk true) ∧ (srEvents w p)[49]? = some (.line .latch true) ∧
    (n ≤ 49 → (((srEvents w p).take n).foldl Devices.react d).out = d.out) ∧
    (50 ≤ n → (((srEvents w p).take n).foldl Devices.react d).out =
      (((srEvents w p).take 50).foldl Devices.react d).out) ∧
    (50 ≤ n → d.clk = .low → d.latch = .low →
      (((srEvents w p).take n).foldl Devices.react d).out = Octet.ofPattern p)

/-! ### The PRNG -/

/-- 44_prng.md R115 (a), (b), (d): `xorshift16` is a bijection and linear over exclusive or, so is `triple_mix`, and
0 is the only fixed point of each. -/
def Obligations.MixIsALinearBijection : Prop :=
  Function.Bijective xorshift16 ∧ Function.Bijective tripleMix ∧
  (∀ a b, xorshift16 (a ^^^ b) = xorshift16 a ^^^ xorshift16 b) ∧
  (∀ a b, tripleMix (a ^^^ b) = tripleMix a ^^^ tripleMix b) ∧
  (∀ x, xorshift16 x = x ↔ x = 0) ∧ (∀ x, tripleMix x = x ↔ x = 0)

/-- 44_prng.md R115 (c): on the nonzero values `xorshift16` is one cycle of length 65535, and `triple_mix` comes back
after 21845 steps and not before. -/
def Obligations.MixCycleLengths : Prop :=
  ∀ x : BitVec 16, x ≠ 0 →
    (∀ y : BitVec 16, y ≠ 0 → ∃ n, n < 65535 ∧ xorshift16^[n] x = y) ∧
    xorshift16^[65535] x = x ∧ tripleMix^[21845] x = x ∧
    (∀ n, 0 < n → n < 21845 → tripleMix^[n] x ≠ x)

/-- 44_prng.md R118: a fold step depends only on the accumulator modulo `2^16`. So an accumulator of any width of at
least 16 bits, or unbounded, truncated to 16 bits at the end, gives the same seed as the wrapping fold. -/
def Obligations.SeedFoldIgnoresTheWidth : Prop :=
  (∀ a word : Nat, (a * 97 + word) % 2 ^ 16 = (a % 2 ^ 16 * 97 + word) % 2 ^ 16) ∧
  ∀ ws : List (BitVec 16),
    (∀ width, 16 ≤ width →
      ws.foldl (fun a word => (a * 97 + word.toNat) % 2 ^ width) 0 % 2 ^ 16 = (seedFold ws).toNat) ∧
    ws.foldl (fun a word => a * 97 + word.toNat) 0 % 2 ^ 16 = (seedFold ws).toNat

/-- 44_prng.md R119: three samples add the mix of their exclusive or; over an all-zero window, samples that cancel
leave the state 0, which `PRNG_ADVANCE` never leaves. That the draws are those the environment's queues hold is the
model's way to say where a draw comes from (log 5, log 24), and no rule's. -/
def Obligations.NoiseFoldsToOneMix : Prop :=
  (∀ a b c : BitVec 16, tripleMix a ^^^ tripleMix b ^^^ tripleMix c = tripleMix (a ^^^ b ^^^ c)) ∧
  (∀ n : Nat, seedFold (List.replicate n 0) = 0) ∧
  (∀ (s : State) (a b c : BitVec 16) (rest : List (BitVec 16)), s.seeded = false →
    s.env.bootIn = List.replicate 1024 0 → s.env.adcIn = a :: b :: c :: rest → a ^^^ b ^^^ c = 0 →
    ∃ t u, exec .prngInit s = .next t ∧ t.prng = 0 ∧ exec .prngAdvance t = .next u ∧ u.prng = 0)

/-- 44_prng.md R122: from a seeded state `PRNG_UPDATE` completes whatever the environment, and `PRNG` becomes the mix of
the old value with at most its low nibble flipped: one of at most 16 values. By R115 the 16 are distinct, and some
sample reaches each. A sample whose mixed low nibble is 0, such as `0x0000` and `0x000D`, does what `PRNG_ADVANCE`
does, but for its `Adc` event. From `PRNG = 0` the state becomes the mix of the nibble, nonzero where the nibble is;
sample `0x0001` gives `0x6417`. That a given sample is the one at the head of the environment's queue, and is used up,
is the model's way to say where a draw comes from (log 5), and no rule's. -/
def Obligations.UpdateReachesSixteenStates : Prop :=
  tripleMix 0x0000 &&& 0x000F = 0 ∧ tripleMix 0x000D &&& 0x000F = 0 ∧
  ∀ s : State, s.seeded = true →
    ((List.range 16).map fun k => tripleMix (s.prng ^^^ BitVec.ofNat 16 k)).Nodup ∧
    (∀ env : Env, ∃ t k, k < 16 ∧ exec .prngUpdate { s with env := env } = .next t ∧
      t.prng = tripleMix (s.prng ^^^ BitVec.ofNat 16 k)) ∧
    (∀ k, k < 16 → ∃ a : BitVec 16, ∀ rest : List (BitVec 16), ∃ t,
      exec .prngUpdate { s with env := { s.env with adcIn := a :: rest } } = .next t ∧
      t.prng = tripleMix (s.prng ^^^ BitVec.ofNat 16 k)) ∧
    (∀ (a : BitVec 16) (rest : List (BitVec 16)), tripleMix a &&& 0x000F = 0 → ∃ u,
      exec .prngAdvance { s with env := { s.env with adcIn := a :: rest } } = .next u ∧
      exec .prngUpdate { s with env := { s.env with adcIn := a :: rest } } =
        .next { u with tr := s.tr ++ [.adc a], env := { s.env with adcIn := rest } }) ∧
    (∀ (a : BitVec 16) (rest : List (BitVec 16)), s.prng = 0 → ∃ t,
      exec .prngUpdate { s with env := { s.env with adcIn := a :: rest } } = .next t ∧
      t.prng = tripleMix (tripleMix a &&& 0x000F) ∧ (tripleMix a &&& 0x000F ≠ 0 → t.prng ≠ 0) ∧
      (a = 0x0001 → t.prng = 0x6417))

/-! ### The walk -/

/-- 43_random_walk.md R107: the scan always returns when `r` is below the total, and it returns the target of an edge
exactly as the running sums say; an edge of weight 0 encloses no `r`. -/
def Obligations.BucketScanFollowsTheSums : Prop :=
  (∀ (r : Nat) (es : List Edge), r < totalWeight es → ∃ lower e upper, es = lower ++ e :: upper ∧
    totalWeight lower ≤ r ∧ r < totalWeight lower + e.weight.toNat ∧ bucketScan r 0 es = some e.target) ∧
  (∀ (r : Nat) (lower upper : List Edge) (e : Edge), totalWeight lower ≤ r →
    r < totalWeight lower + e.weight.toNat → bucketScan r 0 (lower ++ e :: upper) = some e.target)

/-- 43_random_walk.md R104, 20_memory.md R46: in a well-formed graph every total is at most 65025, and a node
reachable from node 0 (the node whose id is 0, log 19) has a positive one. -/
def Obligations.WellFormedTotals : Prop :=
  ∀ g : Graph, g.WF → ∀ n ∈ g, totalWeight n.edges ≤ 65025 ∧ (Graph.Reach g n.id → 0 < totalWeight n.edges)

/-- 43_random_walk.md R109, R110: over a well-formed graph, seeded, a walk that starts at a node id reachable from
node 0 (the node whose id is 0, log 19) never faults, and every id it reports is reachable from node 0 again. -/
def Obligations.WalkStaysReachable : Prop :=
  ∀ s : State, s.mem.graph.WF → s.seeded = true → Graph.Reach s.mem.graph (s.arg0.setWidth 8) →
    ∃ t, exec .nextId s = .next t ∧ t.phase = s.phase ∧ t.status.fault = s.status.fault ∧
      t.status.valid = true ∧ Graph.Reach s.mem.graph (t.result.setWidth 8) ∧ t.result.toNat < 256

/-- 20_memory.md R46: the build-time check, which is the model's own (log 27), accepts only well-formed graphs,
with node 0 read as the node whose id is 0 (log 19). -/
def Obligations.GraphCheckIsSound : Prop := ∀ g : Graph, g.check = true → g.WF
end

