-- ==== Sys2Proof/Laws/State.lean ====
section
/-! SUPPORT. One lemma per field of `State` per update, true by unfolding the update, so that no later proof unfolds
a record update. -/

namespace Sys2Proof.Machine

/-! ### `emit` -/

@[simp] theorem emit_phase (evs : List Event) (s : State) : (emit evs s).phase = s.phase := rfl
@[simp] theorem emit_seeded (evs : List Event) (s : State) : (emit evs s).seeded = s.seeded := rfl
@[simp] theorem emit_prng (evs : List Event) (s : State) : (emit evs s).prng = s.prng := rfl
@[simp] theorem emit_pos (evs : List Event) (s : State) : (emit evs s).pos = s.pos := rfl
@[simp] theorem emit_curSeq (evs : List Event) (s : State) : (emit evs s).curSeq = s.curSeq := rfl
@[simp] theorem emit_arg0 (evs : List Event) (s : State) : (emit evs s).arg0 = s.arg0 := rfl
@[simp] theorem emit_arg1 (evs : List Event) (s : State) : (emit evs s).arg1 = s.arg1 := rfl
@[simp] theorem emit_result (evs : List Event) (s : State) : (emit evs s).result = s.result := rfl
@[simp] theorem emit_status (evs : List Event) (s : State) : (emit evs s).status = s.status := rfl
@[simp] theorem emit_tr (evs : List Event) (s : State) : (emit evs s).tr = s.tr ++ evs := rfl
@[simp] theorem emit_faultReason (evs : List Event) (s : State) : (emit evs s).faultReason = s.faultReason := rfl
@[simp] theorem emit_dev (evs : List Event) (s : State) : (emit evs s).dev = evs.foldl Devices.react s.dev := rfl
@[simp] theorem emit_mem (evs : List Event) (s : State) : (emit evs s).mem = s.mem := rfl
@[simp] theorem emit_cfg (evs : List Event) (s : State) : (emit evs s).cfg = s.cfg := rfl
@[simp] theorem emit_env (evs : List Event) (s : State) : (emit evs s).env = s.env := rfl

/-! ### `accept` -/

@[simp] theorem accept_phase (s : State) : (accept s).phase = s.phase := rfl
@[simp] theorem accept_seeded (s : State) : (accept s).seeded = s.seeded := rfl
@[simp] theorem accept_prng (s : State) : (accept s).prng = s.prng := rfl
@[simp] theorem accept_pos (s : State) : (accept s).pos = s.pos := rfl
@[simp] theorem accept_curSeq (s : State) : (accept s).curSeq = s.curSeq := rfl
@[simp] theorem accept_arg0 (s : State) : (accept s).arg0 = s.arg0 := rfl
@[simp] theorem accept_arg1 (s : State) : (accept s).arg1 = s.arg1 := rfl
@[simp] theorem accept_result (s : State) : (accept s).result = s.result := rfl
@[simp] theorem accept_status (s : State) : (accept s).status = { s.status with busy := true } := rfl
@[simp] theorem accept_tr (s : State) : (accept s).tr = s.tr := rfl
@[simp] theorem accept_faultReason (s : State) : (accept s).faultReason = s.faultReason := rfl
@[simp] theorem accept_dev (s : State) : (accept s).dev = s.dev := rfl
@[simp] theorem accept_mem (s : State) : (accept s).mem = s.mem := rfl
@[simp] theorem accept_cfg (s : State) : (accept s).cfg = s.cfg := rfl
@[simp] theorem accept_env (s : State) : (accept s).env = s.env := rfl

/-! ### `completeWith` -/

@[simp] theorem completeWith_phase (v : Word16) (s : State) : (completeWith v s).phase = s.phase := rfl
@[simp] theorem completeWith_seeded (v : Word16) (s : State) : (completeWith v s).seeded = s.seeded := rfl
@[simp] theorem completeWith_prng (v : Word16) (s : State) : (completeWith v s).prng = s.prng := rfl
@[simp] theorem completeWith_pos (v : Word16) (s : State) : (completeWith v s).pos = s.pos := rfl
@[simp] theorem completeWith_curSeq (v : Word16) (s : State) : (completeWith v s).curSeq = s.curSeq := rfl
@[simp] theorem completeWith_arg0 (v : Word16) (s : State) : (completeWith v s).arg0 = s.arg0 := rfl
@[simp] theorem completeWith_arg1 (v : Word16) (s : State) : (completeWith v s).arg1 = s.arg1 := rfl
@[simp] theorem completeWith_result (v : Word16) (s : State) : (completeWith v s).result = v := rfl
@[simp] theorem completeWith_status (v : Word16) (s : State) :
    (completeWith v s).status = { s.status with valid := true, busy := false } := rfl
@[simp] theorem completeWith_tr (v : Word16) (s : State) : (completeWith v s).tr = s.tr := rfl
@[simp] theorem completeWith_faultReason (v : Word16) (s : State) :
    (completeWith v s).faultReason = s.faultReason := rfl
@[simp] theorem completeWith_dev (v : Word16) (s : State) : (completeWith v s).dev = s.dev := rfl
@[simp] theorem completeWith_mem (v : Word16) (s : State) : (completeWith v s).mem = s.mem := rfl
@[simp] theorem completeWith_cfg (v : Word16) (s : State) : (completeWith v s).cfg = s.cfg := rfl
@[simp] theorem completeWith_env (v : Word16) (s : State) : (completeWith v s).env = s.env := rfl

/-! ### `completeVoid` -/

@[simp] theorem completeVoid_phase (s : State) : (completeVoid s).phase = s.phase := rfl
@[simp] theorem completeVoid_seeded (s : State) : (completeVoid s).seeded = s.seeded := rfl
@[simp] theorem completeVoid_prng (s : State) : (completeVoid s).prng = s.prng := rfl
@[simp] theorem completeVoid_pos (s : State) : (completeVoid s).pos = s.pos := rfl
@[simp] theorem completeVoid_curSeq (s : State) : (completeVoid s).curSeq = s.curSeq := rfl
@[simp] theorem completeVoid_arg0 (s : State) : (completeVoid s).arg0 = s.arg0 := rfl
@[simp] theorem completeVoid_arg1 (s : State) : (completeVoid s).arg1 = s.arg1 := rfl
@[simp] theorem completeVoid_result (s : State) : (completeVoid s).result = s.result := rfl
@[simp] theorem completeVoid_status (s : State) :
    (completeVoid s).status = { s.status with valid := false, busy := false } := rfl
@[simp] theorem completeVoid_tr (s : State) : (completeVoid s).tr = s.tr := rfl
@[simp] theorem completeVoid_faultReason (s : State) : (completeVoid s).faultReason = s.faultReason := rfl
@[simp] theorem completeVoid_dev (s : State) : (completeVoid s).dev = s.dev := rfl
@[simp] theorem completeVoid_mem (s : State) : (completeVoid s).mem = s.mem := rfl
@[simp] theorem completeVoid_cfg (s : State) : (completeVoid s).cfg = s.cfg := rfl
@[simp] theorem completeVoid_env (s : State) : (completeVoid s).env = s.env := rfl

/-! ### `raiseFault` -/

@[simp] theorem raiseFault_phase (c : Cause) (x : Option FetchSite) (s : State) :
    (raiseFault c x s).phase = .fault := rfl
@[simp] theorem raiseFault_seeded (c : Cause) (x : Option FetchSite) (s : State) :
    (raiseFault c x s).seeded = s.seeded := rfl
@[simp] theorem raiseFault_prng (c : Cause) (x : Option FetchSite) (s : State) :
    (raiseFault c x s).prng = s.prng := rfl
@[simp] theorem raiseFault_pos (c : Cause) (x : Option FetchSite) (s : State) : (raiseFault c x s).pos = s.pos := rfl
@[simp] theorem raiseFault_curSeq (c : Cause) (x : Option FetchSite) (s : State) :
    (raiseFault c x s).curSeq = s.curSeq := rfl
@[simp] theorem raiseFault_arg0 (c : Cause) (x : Option FetchSite) (s : State) :
    (raiseFault c x s).arg0 = s.arg0 := rfl
@[simp] theorem raiseFault_arg1 (c : Cause) (x : Option FetchSite) (s : State) :
    (raiseFault c x s).arg1 = s.arg1 := rfl
@[simp] theorem raiseFault_result (c : Cause) (x : Option FetchSite) (s : State) :
    (raiseFault c x s).result = s.result := rfl
@[simp] theorem raiseFault_status (c : Cause) (x : Option FetchSite) (s : State) :
    (raiseFault c x s).status = { s.status with busy := false, fault := true, cause := c } := rfl
@[simp] theorem raiseFault_tr (c : Cause) (x : Option FetchSite) (s : State) : (raiseFault c x s).tr = s.tr := rfl
@[simp] theorem raiseFault_faultReason (c : Cause) (x : Option FetchSite) (s : State) :
    (raiseFault c x s).faultReason = some ⟨c, x⟩ := rfl
@[simp] theorem raiseFault_dev (c : Cause) (x : Option FetchSite) (s : State) : (raiseFault c x s).dev = s.dev := rfl
@[simp] theorem raiseFault_mem (c : Cause) (x : Option FetchSite) (s : State) : (raiseFault c x s).mem = s.mem := rfl
@[simp] theorem raiseFault_cfg (c : Cause) (x : Option FetchSite) (s : State) : (raiseFault c x s).cfg = s.cfg := rfl
@[simp] theorem raiseFault_env (c : Cause) (x : Option FetchSite) (s : State) : (raiseFault c x s).env = s.env := rfl

/-! ### `srUpdate` -/

@[simp] theorem srUpdate_phase (p : Byte) (s : State) : (srUpdate p s).phase = s.phase := rfl
@[simp] theorem srUpdate_seeded (p : Byte) (s : State) : (srUpdate p s).seeded = s.seeded := rfl
@[simp] theorem srUpdate_prng (p : Byte) (s : State) : (srUpdate p s).prng = s.prng := rfl
@[simp] theorem srUpdate_pos (p : Byte) (s : State) : (srUpdate p s).pos = s.pos := rfl
@[simp] theorem srUpdate_curSeq (p : Byte) (s : State) : (srUpdate p s).curSeq = s.curSeq := rfl
@[simp] theorem srUpdate_arg0 (p : Byte) (s : State) : (srUpdate p s).arg0 = s.arg0 := rfl
@[simp] theorem srUpdate_arg1 (p : Byte) (s : State) : (srUpdate p s).arg1 = s.arg1 := rfl
@[simp] theorem srUpdate_result (p : Byte) (s : State) : (srUpdate p s).result = s.result := rfl
@[simp] theorem srUpdate_status (p : Byte) (s : State) : (srUpdate p s).status = s.status := rfl
@[simp] theorem srUpdate_tr (p : Byte) (s : State) :
    (srUpdate p s).tr = s.tr ++ srEvents (subPhaseArg s.cfg) p := rfl
@[simp] theorem srUpdate_faultReason (p : Byte) (s : State) : (srUpdate p s).faultReason = s.faultReason := rfl
@[simp] theorem srUpdate_dev (p : Byte) (s : State) :
    (srUpdate p s).dev = settleRegister s.cfg ((srEvents (subPhaseArg s.cfg) p).foldl Devices.react s.dev) := rfl
@[simp] theorem srUpdate_mem (p : Byte) (s : State) : (srUpdate p s).mem = s.mem := rfl
@[simp] theorem srUpdate_cfg (p : Byte) (s : State) : (srUpdate p s).cfg = s.cfg := rfl
@[simp] theorem srUpdate_env (p : Byte) (s : State) : (srUpdate p s).env = s.env := rfl

/-! ### `finishRun` -/

@[simp] theorem finishRun_phase (s : State) : (finishRun s).phase = .idle := rfl
@[simp] theorem finishRun_seeded (s : State) : (finishRun s).seeded = s.seeded := rfl
@[simp] theorem finishRun_prng (s : State) : (finishRun s).prng = s.prng := rfl
@[simp] theorem finishRun_pos (s : State) : (finishRun s).pos = Config.freePos s.env.fresh := rfl
@[simp] theorem finishRun_curSeq (s : State) : (finishRun s).curSeq = Config.freeSeqId s.env.fresh := rfl
@[simp] theorem finishRun_arg0 (s : State) : (finishRun s).arg0 = s.arg0 := rfl
@[simp] theorem finishRun_arg1 (s : State) : (finishRun s).arg1 = s.arg1 := rfl
@[simp] theorem finishRun_result (s : State) : (finishRun s).result = s.pos := rfl
@[simp] theorem finishRun_status (s : State) :
    (finishRun s).status = { s.status with valid := true, busy := false } := rfl
@[simp] theorem finishRun_tr (s : State) : (finishRun s).tr = s.tr := rfl
@[simp] theorem finishRun_faultReason (s : State) : (finishRun s).faultReason = s.faultReason := rfl
@[simp] theorem finishRun_dev (s : State) : (finishRun s).dev = s.dev := rfl
@[simp] theorem finishRun_mem (s : State) : (finishRun s).mem = s.mem := rfl
@[simp] theorem finishRun_cfg (s : State) : (finishRun s).cfg = s.cfg := rfl
@[simp] theorem finishRun_env (s : State) : (finishRun s).env = { s.env with fresh := s.env.fresh + 1 } := rfl

/-! ### `runStart` -/

@[simp] theorem runStart_phase (q : Byte) (i : Word16) (s : State) : (runStart q i s).phase = .run := rfl
@[simp] theorem runStart_seeded (q : Byte) (i : Word16) (s : State) : (runStart q i s).seeded = s.seeded := rfl
@[simp] theorem runStart_prng (q : Byte) (i : Word16) (s : State) : (runStart q i s).prng = s.prng := rfl
@[simp] theorem runStart_pos (q : Byte) (i : Word16) (s : State) : (runStart q i s).pos = i := rfl
@[simp] theorem runStart_curSeq (q : Byte) (i : Word16) (s : State) : (runStart q i s).curSeq = q := rfl
@[simp] theorem runStart_arg0 (q : Byte) (i : Word16) (s : State) : (runStart q i s).arg0 = s.arg0 := rfl
@[simp] theorem runStart_arg1 (q : Byte) (i : Word16) (s : State) : (runStart q i s).arg1 = s.arg1 := rfl
@[simp] theorem runStart_result (q : Byte) (i : Word16) (s : State) : (runStart q i s).result = s.result := rfl
@[simp] theorem runStart_status (q : Byte) (i : Word16) (s : State) : (runStart q i s).status = s.status := rfl
@[simp] theorem runStart_tr (q : Byte) (i : Word16) (s : State) : (runStart q i s).tr = s.tr := rfl
@[simp] theorem runStart_faultReason (q : Byte) (i : Word16) (s : State) :
    (runStart q i s).faultReason = s.faultReason := rfl
@[simp] theorem runStart_dev (q : Byte) (i : Word16) (s : State) : (runStart q i s).dev = s.dev := rfl
@[simp] theorem runStart_mem (q : Byte) (i : Word16) (s : State) : (runStart q i s).mem = s.mem := rfl
@[simp] theorem runStart_cfg (q : Byte) (i : Word16) (s : State) : (runStart q i s).cfg = s.cfg := rfl
@[simp] theorem runStart_env (q : Byte) (i : Word16) (s : State) : (runStart q i s).env = s.env := rfl

/-! ### `advancePos` -/

@[simp] theorem advancePos_phase (s : State) : (advancePos s).phase = s.phase := rfl
@[simp] theorem advancePos_seeded (s : State) : (advancePos s).seeded = s.seeded := rfl
@[simp] theorem advancePos_prng (s : State) : (advancePos s).prng = s.prng := rfl
@[simp] theorem advancePos_pos (s : State) : (advancePos s).pos = s.pos + 1 := rfl
@[simp] theorem advancePos_curSeq (s : State) : (advancePos s).curSeq = s.curSeq := rfl
@[simp] theorem advancePos_arg0 (s : State) : (advancePos s).arg0 = s.arg0 := rfl
@[simp] theorem advancePos_arg1 (s : State) : (advancePos s).arg1 = s.arg1 := rfl
@[simp] theorem advancePos_result (s : State) : (advancePos s).result = s.result := rfl
@[simp] theorem advancePos_status (s : State) : (advancePos s).status = s.status := rfl
@[simp] theorem advancePos_tr (s : State) : (advancePos s).tr = s.tr := rfl
@[simp] theorem advancePos_faultReason (s : State) : (advancePos s).faultReason = s.faultReason := rfl
@[simp] theorem advancePos_dev (s : State) : (advancePos s).dev = s.dev := rfl
@[simp] theorem advancePos_mem (s : State) : (advancePos s).mem = s.mem := rfl
@[simp] theorem advancePos_cfg (s : State) : (advancePos s).cfg = s.cfg := rfl
@[simp] theorem advancePos_env (s : State) : (advancePos s).env = s.env := rfl

/-! ### `withScript` -/

@[simp] theorem withScript_phase (is : List HostInput) (s : State) : (withScript is s).phase = s.phase := rfl
@[simp] theorem withScript_seeded (is : List HostInput) (s : State) : (withScript is s).seeded = s.seeded := rfl
@[simp] theorem withScript_prng (is : List HostInput) (s : State) : (withScript is s).prng = s.prng := rfl
@[simp] theorem withScript_pos (is : List HostInput) (s : State) : (withScript is s).pos = s.pos := rfl
@[simp] theorem withScript_curSeq (is : List HostInput) (s : State) : (withScript is s).curSeq = s.curSeq := rfl
@[simp] theorem withScript_arg0 (is : List HostInput) (s : State) : (withScript is s).arg0 = s.arg0 := rfl
@[simp] theorem withScript_arg1 (is : List HostInput) (s : State) : (withScript is s).arg1 = s.arg1 := rfl
@[simp] theorem withScript_result (is : List HostInput) (s : State) : (withScript is s).result = s.result := rfl
@[simp] theorem withScript_status (is : List HostInput) (s : State) : (withScript is s).status = s.status := rfl
@[simp] theorem withScript_tr (is : List HostInput) (s : State) : (withScript is s).tr = s.tr := rfl
@[simp] theorem withScript_faultReason (is : List HostInput) (s : State) :
    (withScript is s).faultReason = s.faultReason := rfl
@[simp] theorem withScript_dev (is : List HostInput) (s : State) : (withScript is s).dev = s.dev := rfl
@[simp] theorem withScript_mem (is : List HostInput) (s : State) : (withScript is s).mem = s.mem := rfl
@[simp] theorem withScript_cfg (is : List HostInput) (s : State) : (withScript is s).cfg = s.cfg := rfl
@[simp] theorem withScript_env (is : List HostInput) (s : State) :
    (withScript is s).env = { s.env with script := is } := rfl

/-! ### `powerCycle` -/

@[simp] theorem powerCycle_phase (s : State) : (powerCycle s).phase = State.reset.phase := rfl
@[simp] theorem powerCycle_seeded (s : State) : (powerCycle s).seeded = State.reset.seeded := rfl
@[simp] theorem powerCycle_prng (s : State) : (powerCycle s).prng = State.reset.prng := rfl
@[simp] theorem powerCycle_pos (s : State) : (powerCycle s).pos = State.reset.pos := rfl
@[simp] theorem powerCycle_curSeq (s : State) : (powerCycle s).curSeq = State.reset.curSeq := rfl
@[simp] theorem powerCycle_arg0 (s : State) : (powerCycle s).arg0 = State.reset.arg0 := rfl
@[simp] theorem powerCycle_arg1 (s : State) : (powerCycle s).arg1 = State.reset.arg1 := rfl
@[simp] theorem powerCycle_result (s : State) : (powerCycle s).result = State.reset.result := rfl
@[simp] theorem powerCycle_status (s : State) : (powerCycle s).status = State.reset.status := rfl
@[simp] theorem powerCycle_tr (s : State) : (powerCycle s).tr = State.reset.tr := rfl
@[simp] theorem powerCycle_faultReason (s : State) : (powerCycle s).faultReason = State.reset.faultReason := rfl
@[simp] theorem powerCycle_dev (s : State) : (powerCycle s).dev = State.reset.dev := rfl
@[simp] theorem powerCycle_mem (s : State) : (powerCycle s).mem = s.mem := rfl
@[simp] theorem powerCycle_cfg (s : State) : (powerCycle s).cfg = s.cfg := rfl
@[simp] theorem powerCycle_env (s : State) : (powerCycle s).env = s.env := rfl

end Sys2Proof.Machine
end

