-- ==== Sys2Proof/Laws/Ops.lean ====
section
/-! SUPPORT. For each shared operation, what it can do, said once: later proofs cite these lemmas instead of
unfolding the operation. -/

namespace Sys2Proof.Machine

/-! ### The trace and the devices -/

@[simp] theorem emit_nil (s : State) : emit [] s = s := by simp [emit]

theorem emit_append (as bs : List Event) (s : State) : emit (as ++ bs) s = emit bs (emit as s) := by
  simp [emit, List.foldl_append]

/-- A line event leaves the PWM source alone. -/
theorem react_line_pwm (d : Devices) (l : Line) (b : Bool) :
    (d.react (.line l b)).pwmFreq = d.pwmFreq ∧ (d.react (.line l b)).pwmDuty = d.pwmDuty ∧
      (d.react (.line l b)).pwmEn = d.pwmEn := by
  cases l <;> cases b <;>
    simp only [Devices.react, Devices.clkHigh, Devices.latchHigh] <;> first | trivial | (split <;> trivial)

/-- After a line event the line has the event's level (10_state.md R34). -/
theorem react_line_level (d : Devices) (l : Line) (b : Bool) :
    (d.react (.line l b)).level l = Level.ofBool b := by
  cases l <;> cases b <;>
    simp only [Devices.react, Devices.clkHigh, Devices.latchHigh, Devices.level, Level.ofBool] <;>
    first | rfl | (split <;> first | rfl | assumption)

/-- A line event leaves every other line alone. -/
theorem react_line_other (d : Devices) (l m : Line) (b : Bool) (h : m ≠ l) :
    (d.react (.line l b)).level m = d.level m := by
  cases l <;> cases m <;> first | exact absurd rfl h | skip
  all_goals
    cases b <;> simp only [Devices.react, Devices.clkHigh, Devices.latchHigh, Devices.level] <;>
      first | rfl | (split <;> rfl)

/-- Boot-window reads and ADC samples leave the devices alone. -/
theorem react_bootEvents (ws : List Word16) (k : Nat) (d : Devices) :
    ((ws.zipIdx k).map fun p => Event.bootRd p.2 p.1).foldl Devices.react d = d := by
  induction ws generalizing k with
  | nil => rfl
  | cons w ws ih => simpa [List.zipIdx_cons, Devices.react] using ih (k + 1)

/-- Driving a line low from outside never gives a rising edge: `SHIFT` and `OUT` stay (70_reset_and_hazards.md
R155). -/
theorem driveLow_register (l : Line) (d : Devices) :
    (d.driveLow l).shift = d.shift ∧ (d.driveLow l).out = d.out := by
  cases l <;> simp only [Devices.driveLow, Devices.level] <;> split <;> trivial

/-! ### The read-only stores -/

/-- A position at or past the end of a sequence reads the `End` word (20_memory.md R44). -/
theorem seqRead_past_end (st : SeqStore) (q : Byte) (i : Word16)
    (h : (st.getD q.toNat []).length ≤ i.toNat) : seqRead st q i = 0x000000 := by
  simp only [seqRead]
  exact List.getD_eq_default _ _ h

/-- A position inside a sequence reads the word there (20_memory.md R44). -/
theorem seqRead_inside (st : SeqStore) (q : Byte) (i : Word16)
    (h : i.toNat < (st.getD q.toNat []).length) : seqRead st q i = (st.getD q.toNat [])[i.toNat] := by
  simp only [seqRead]
  exact List.getD_eq_getElem _ _ h

/-- An index below 128 reads its table entry (41_tone_selector.md R82). -/
theorem freqSelect_inside (t : FreqTable) (i : Byte) (h : i.toNat < 128) :
    freqSelect t i = some (t[i.toNat]'h) := by
  simp [freqSelect, h]

/-- An index of 128 or more reads nothing (41_tone_selector.md R84). -/
theorem freqSelect_outside (t : FreqTable) (i : Byte) (h : 128 ≤ i.toNat) : freqSelect t i = none := by
  simp [freqSelect, Nat.not_lt.mpr h]

/-- Placing a word keeps the sequence store well formed. -/
theorem placeWord_wf (w : ActionWord) (st : SeqStore) (h : st.wf = true) : (placeWord w st).wf = true := by
  match st with
  | [] => simp [SeqStore.wf] at h
  | [] :: qs =>
    simp [SeqStore.wf, placeWord, topPos] at h ⊢
    exact h
  | (_ :: ws) :: qs =>
    simp [SeqStore.wf, placeWord, topPos] at h ⊢
    exact h

/-- Placing an instruction keeps the memory's form: it is the only operation that writes a store, and it stands for
loading a program from outside (log 3). -/
theorem withFetchWord_memWf (s : State) (n w : Nat) (h : s.mem.wf = true) :
    (s.withFetchWord n w).mem.wf = true := by
  simp only [State.withFetchWord]
  split
  · exact placeWord_wf _ _ h
  · exact h

/-! ### Draws -/

/-- One ADC sample: some value, its event, and an environment in which only the draws moved on (10_state.md R32). -/
theorem adcSample_spec (s : State) :
    ∃ v e, adcSample s = (v, emit [.adc v] { s with env := e }) ∧
      e.script = s.env.script ∧ e.bootIn = s.env.bootIn ∧ e.readLog = s.env.readLog := by
  simp only [adcSample]
  split
  · exact ⟨_, _, rfl, rfl, rfl, rfl⟩
  · exact ⟨_, _, rfl, rfl, rfl, rfl⟩

/-- A fixed sample is the one that is read (log 5). -/
theorem adcSample_fixed (s : State) (v : Word16) (rest : List Word16) (h : s.env.adcIn = v :: rest) :
    adcSample s = (v, emit [.adc v] { s with env := { s.env with adcIn := rest } }) := by
  simp only [adcSample, h]

@[simp] theorem bootWords_length (n : Nat) (e : Env) : (bootWords n e).length = n := by
  simp only [bootWords, List.length_append, List.length_take, List.length_map, List.length_range]
  omega

/-- Boot words that are all fixed are the ones read (log 5). -/
theorem bootWords_fixed (n : Nat) (e : Env) (h : n ≤ e.bootIn.length) : bootWords n e = e.bootIn.take n := by
  simp [bootWords, Nat.sub_eq_zero_of_le h]

@[simp] theorem bootEvents_length (ws : List Word16) : (bootEvents ws).length = ws.length := by
  simp [bootEvents]

/-- The boot-window reads: `count` words, one event each, the devices unchanged (20_memory.md R48). -/
theorem bootReadAll_spec (count : Nat) (s : State) :
    (bootReadAll count s).1.length = count ∧
      (bootReadAll count s).2 =
        { s with tr := s.tr ++ bootEvents (bootReadAll count s).1, env := afterBootReads count s.env } := by
  refine ⟨by simp [bootReadAll], ?_⟩
  simp [bootReadAll, emit, bootEvents, react_bootEvents]

/-! ### The driver -/

/-- The bits are sent most significant first, then the latch pulse (40_shift_register.md R72). -/
@[simp] theorem srEvents_length (w : Word32) (p : Byte) : (srEvents w p).length = 53 := by
  simp [srEvents, bitOrder, pulse]

/-! ### One turn -/

/-- With nothing from outside the block goes on by itself. -/
theorem turn_nil (s : State) (h : s.env.script = []) : turn s = blockStep s := by
  simp only [turn, h]

/-- While the host awaits a busy block, the block steps (70_reset_and_hazards.md R160). -/
theorem turn_await_busy (s : State) (rest : List HostInput) (h : s.env.script = .await :: rest)
    (hb : s.status.busy = true) : turn s = blockStep s := by
  simp only [turn, h, hb, if_true]

/-- A host that awaits a block that is not busy goes on. -/
theorem turn_await_ready (s : State) (rest : List HostInput) (h : s.env.script = .await :: rest)
    (hb : s.status.busy = false) : turn s = .next (withScript rest s) := by
  simp [turn, h, hb, serve]

/-- Every other access is taken off the script and served. -/
theorem turn_cons (s : State) (i : HostInput) (rest : List HostInput) (h : s.env.script = i :: rest)
    (hi : i ≠ .await) : turn s = serve i (withScript rest s) := by
  cases i <;> first | exact absurd rfl hi | simp only [turn, h]

end Sys2Proof.Machine
end

