-- ==== Sys2Proof/Laws/PerInstr.lean ====
section
/-! SUPPORT. What holds of each instruction as syntax: its word matches its own row of the opcode table
(30_encoding.md R71). -/

namespace Sys2Proof.Laws.TableRow

/-- The instruction's word has the format of its mnemonic's row and matches that row (30_encoding.md R71). -/
def Statement (i : Instr) : Prop :=
  ∃ r ∈ opcodeTable, r.mnemonic = i.mnemonic ∧ r.format = i.format ∧ r.hits (encode i) = true

/-- Which bits the mask of the tag keeps. -/
theorem opMask_bits : ∀ j : Fin 24, (0xFF0000#24 : BitVec 24).getLsbD j.val = decide (16 ≤ j.val) := by decide

/-- The mask of the tag clears the payload. -/
theorem op_of_mkAction (op : Byte) (d : Word16) :
    (mkAction op d).toNat &&& 0xFF0000 = (mkAction op 0).toNat := by
  have h : mkAction op d &&& 0xFF0000#24 = mkAction op 0 := by
    apply BitVec.eq_of_getLsbD_eq
    intro i hi
    rw [BitVec.getLsbD_and, opMask_bits ⟨i, hi⟩]
    simp only [mkAction, BitVec.getLsbD_append]
    by_cases h : i < 16
    · simp [h]
    · simp [h, Nat.not_lt.mp h]
  simpa [BitVec.toNat_and] using congrArg BitVec.toNat h

theorem endAct : Statement .endAct := ⟨_, .head _, rfl, rfl, by decide⟩

theorem wait (d : Word16) : Statement (.wait d) := by
  refine ⟨_, .tail _ (.head _), rfl, rfl, ?_⟩
  have h := op_of_mkAction 0x01 d
  simp only [OpcodeRow.hits, encode, Encoded.toNat, Encoded.format]
  rw [h]
  decide

theorem note (index : Byte) : Statement (.note index) := by
  refine ⟨_, .tail _ (.tail _ (.head _)), rfl, rfl, ?_⟩
  revert index
  decide

theorem led (p : Byte) : Statement (.led p) := by
  refine ⟨_, .tail _ (.tail _ (.tail _ (.head _))), rfl, rfl, ?_⟩
  revert p
  decide

theorem run : Statement .run :=
  ⟨⟨"RUN", .cmd, 0x0001, 0xFFFF⟩, by decide, rfl, rfl, by decide⟩

theorem srUpdate : Statement .srUpdate :=
  ⟨⟨"SR_UPDATE", .cmd, 0x0002, 0xFFFF⟩, by decide, rfl, rfl, by decide⟩

theorem toneLookup : Statement .toneLookup :=
  ⟨⟨"TONE_LOOKUP", .cmd, 0x0003, 0xFFFF⟩, by decide, rfl, rfl, by decide⟩

theorem nextId : Statement .nextId :=
  ⟨⟨"NEXT_ID", .cmd, 0x0004, 0xFFFF⟩, by decide, rfl, rfl, by decide⟩

theorem prngInit : Statement .prngInit :=
  ⟨⟨"PRNG_INIT", .cmd, 0x0005, 0xFFFF⟩, by decide, rfl, rfl, by decide⟩

theorem prngAdvance : Statement .prngAdvance :=
  ⟨⟨"PRNG_ADVANCE", .cmd, 0x0006, 0xFFFF⟩, by decide, rfl, rfl, by decide⟩

theorem prngUpdate : Statement .prngUpdate :=
  ⟨⟨"PRNG_UPDATE", .cmd, 0x0007, 0xFFFF⟩, by decide, rfl, rfl, by decide⟩

end Sys2Proof.Laws.TableRow
end

