-- ==== Sys2Proof/Tests/Slice0.lean ====
section
/-! SUPPORT. Small tests. The expected values are those of spec/95_test_vectors.md and of the rules' own examples. The
theorems named `witness_<Statement>` show concrete states and operands that meet a statement's hypotheses. -/

namespace Sys2Proof.Machine.Tests

open Sys2Proof Sys2Proof.Machine

/-! ### Sample states -/

/-- The graph `G` of 95_test_vectors.md 2.6. -/
def graphG : Graph :=
  [⟨0, 0, [⟨1, 1⟩, ⟨2, 1⟩, ⟨3, 2⟩]⟩, ⟨1, 1, [⟨2, 5⟩]⟩, ⟨2, 2, [⟨1, 200⟩, ⟨3, 100⟩]⟩,
    ⟨3, 3, [⟨0, 255⟩, ⟨1, 255⟩, ⟨2, 255⟩]⟩, ⟨4, 4, []⟩]

/-- Stores with two sequences, the frequencies 1000 to 1127, and `G`. -/
def mem : Memory := ⟨[[0x030081, 0x020045, 0x000000], []], Vector.ofFn fun i => BitVec.ofNat 16 (1000 + i.val), graphG⟩

/-- Parameters with `w = 3`, `SR_MIN_US = 1`, `PWM_CH = 3`, `MAX_DUTY = 1023`. -/
def cfg : Config := ⟨100, 1, 3, 1023, 0, 0, .little⟩

/-- The sample machine after reset, with the host accesses `script` to come. -/
def idle (script : List HostInput) : State :=
  { State.reset with mem := mem, cfg := cfg, env := { Env.silent with script := script } }

/-- The sample machine in a run of a sequence, at a position. -/
def running (words : List ActionWord) (pos : Word16) : State :=
  { idle [] with
    phase := .run
    status := ⟨true, false, false, .noFault⟩
    pos := pos
    mem := { mem with seqs := [words] } }

/-- The sample machine with a seeded `PRNG`. -/
def seeded (v : Word16) (script : List HostInput) : State := { idle script with seeded := true, prng := v }

/-- The sample machine in `FAULT`. -/
def faulted (script : List HostInput) : State := raiseFault .illegalCmd none (idle script)

/-- Whether an outcome is a next state that passes a check. -/
def passes (o : Host.Outcome State Fault Refusal) (check : State → Bool) : Bool :=
  match o with
  | .next t => check t
  | .fault _ => false
  | .refused _ => false

/-- A command executed with an operand. -/
def command (i : Instr) (arg0 : Word16) (s : State) : Host.Outcome State Fault Refusal := exec i { s with arg0 := arg0 }

/-! ### Well-formedness: an ill-formed term refused for each check -/

theorem test_wf_format : Instr.wfIn .act .run = false ∧ Instr.wfIn .cmd (.led 1) = false := by decide

theorem test_wf_sequence : authoredSeqWf [.wait 5, .run] = false := by decide

/-- The top position as a number. -/
theorem topPos_val : topPos.toNat = 65535 := by decide

theorem test_wf_sequence_length : authoredSeqWf (List.replicate 65536 .endAct) = false := by
  rw [authoredSeqWf, List.length_replicate, topPos_val, Bool.and_eq_false_iff]
  right
  decide

theorem test_wf_store : SeqStore.wf [] = false ∧ SeqStore.wf (List.replicate 257 []) = false := by decide +kernel

theorem test_wf_store_length : SeqStore.wf [List.replicate 65536 0] = false := by
  rw [SeqStore.wf, List.all_cons, List.length_replicate, topPos_val, Bool.and_eq_false_iff]
  right
  decide

theorem test_wf_graph_duplicate : Graph.check [⟨0, 0, [⟨0, 1⟩]⟩, ⟨0, 1, [⟨0, 1⟩]⟩] = false := by decide

theorem test_wf_graph_zero_weight : Graph.check [⟨0, 0, [⟨0, 1⟩, ⟨0, 0⟩]⟩] = false := by decide

theorem test_wf_graph_dead_end : Graph.check [⟨0, 0, [⟨1, 1⟩]⟩, ⟨1, 1, []⟩] = false := by decide

theorem test_wf_graph_fan_out : Graph.check [⟨0, 0, List.replicate 256 ⟨0, 1⟩⟩] = false := by decide +kernel

theorem test_wf_config : Config.wf { cfg with srTotalUs := 27 * 2 ^ 32 } = false := by decide

/-! ### Decoding: words written out from 30_encoding.md R61 to R64, R67, R70 -/

theorem test_decode_actions :
    decode (.action 0b000000000000000000000000) = .ok .endAct ∧
    decode (.action 0b000000010000000111110100) = .ok (.wait 500) ∧
    decode (.action 0b000000100000000001000101) = .ok (.note 69) ∧
    decode (.action 0b000000110000000010100101) = .ok (.led 0xA5) := ⟨rfl, rfl, rfl, rfl⟩

theorem test_decode_commands :
    decode (.command 0b0000000000000001) = .ok .run ∧ decode (.command 0b0000000000000010) = .ok .srUpdate ∧
    decode (.command 0b0000000000000011) = .ok .toneLookup ∧ decode (.command 0b0000000000000100) = .ok .nextId ∧
    decode (.command 0b0000000000000101) = .ok .prngInit ∧ decode (.command 0b0000000000000110) = .ok .prngAdvance ∧
    decode (.command 0b0000000000000111) = .ok .prngUpdate := ⟨rfl, rfl, rfl, rfl, rfl, rfl, rfl⟩

theorem test_decode_operand_bounds :
    decode (.action 0x010000) = .ok (.wait 0) ∧ decode (.action 0x01FFFF) = .ok (.wait 65535) ∧
    decode (.action 0x020080) = .ok (.note 128) ∧ decode (.action 0x0200FF) = .ok (.note 255) ∧
    decode (.action 0x0300FF) = .ok (.led 0xFF) := ⟨rfl, rfl, rfl, rfl, rfl⟩

theorem test_decode_illegal_actions :
    ([0x000001, 0x008000, 0x020100, 0x03FF00, 0x040000, 0xFFFFFF] : List ActionWord).all
      (fun w => (decode (.action w)).toOption == none) = true := by decide +kernel

theorem test_decode_illegal_commands :
    ([0x0000, 0x0008, 0x0100, 0xFFFF] : List Word16).all (fun c => (decode (.command c)).toOption == none) = true := by
  decide +kernel

theorem test_decode_table_words :
    decodeTableWord 24 0x020045 = some (.note 69) ∧ decodeTableWord 24 0x040000 = none ∧
    decodeTableWord 16 0x0007 = some .prngUpdate ∧ decodeTableWord 16 0x0000 = none := by decide

/-! ### The step from reset with one word placed -/

/-- The eleven rows each run as the first instruction after reset. -/
theorem test_rows_run_first :
    ∀ r ∈ ([(24, 0x000000), (24, 0x010000), (24, 0x020000), (24, 0x030000), (16, 1), (16, 2), (16, 3), (16, 4), (16, 5),
      (16, 6), (16, 7)] : List (Nat × Nat)),
      passes (step (State.reset.withFetchWord r.1 r.2)) (fun t => t.env.script.isEmpty) = true := by decide +kernel

/-- R92: the first `End` of a sequence answers 1. -/
theorem test_end_placed :
    passes (step (State.reset.withFetchWord 24 0x000000)) (fun t => t.result == 1 && t.phase == .idle) = true := by
  decide +kernel

/-! ### Actions -/

/-- 95_test_vectors.md 2.4: an implicit `End` at 7 of an empty sequence. -/
theorem test_end_implicit :
    passes (step (running [] 7)) (fun t => t.result == 8 && t.tr == [.pwmDis 3] && statusWord t == 0x0004) = true := by
  decide +kernel

theorem test_wait_longest :
    passes (step (running [0x01FFFF] 0)) (fun t => t.tr == [.delayMs 65535] && t.pos == 1 && t.phase == .run) = true := by
  decide +kernel

/-- R86: frequency, half of the maximum duty rounded down, enable. -/
theorem test_note_sounds :
    passes (step (running [0x020045] 0)) (fun t => t.tr == [.pwmFreq 1069, .pwmDuty 3 511, .pwmEn 3]) = true := by
  decide +kernel

theorem test_note_out_of_range :
    passes (step (running [0x020080] 0)) (fun t => t.tr.isEmpty && t.dev.pwmEn == .unknown) = true := by decide +kernel

/-- V-SR-6: from unknown lines, then a second update. -/
theorem test_led_from_unknown :
    passes (exec (.led 0x81) (idle [])) (fun t => t.dev.shift == { Octet.ofPattern 0x81 with b7 := .unknown } &&
      t.dev.out == Octet.unknown &&
      passes (exec (.led 0xA5) t) (fun u => u.dev.shift == Octet.ofPattern 0xA5 && u.dev.out == Octet.ofPattern 0xA5)) =
    true := by decide +kernel

/-- V-SR-1: the trace of `0xA5` begins and ends as R78 lists it. -/
theorem test_led_trace :
    passes (exec (.led 0xA5) (idle [])) (fun t => t.tr.length == 53 &&
      t.tr.take 7 == [.line .data true, .delayUs 3, .line .clk true, .delayUs 3, .line .clk false, .delayUs 3,
        .line .data false] &&
      t.tr.drop 48 == [.delayUs 3, .line .latch true, .delayUs 3, .line .latch false, .delayUs 3]) = true := by
  decide +kernel

/-! ### Commands -/

theorem test_run_starts :
    passes (step (idle [.write .cmd 0x0001])) (fun t => t.phase == .run && statusWord t == 0x0001 && t.pos == 0) = true := by
  decide +kernel

theorem test_run_bad_seq :
    passes (step { idle [.write .cmd 0x0001] with arg1 := 2 }) (fun t => statusWord t == 0x0802) = true := by
  decide +kernel

/-- V-SR-7: only `ARG0[7:0]` is used. -/
theorem test_sr_update :
    passes (command .srUpdate 0xFFA5 (idle [])) (fun t => t.dev.shift.b0 == .high && t.dev.shift.b1 == .low &&
      t.status.valid == false && t.result == 0) = true := by decide +kernel

theorem test_tone_lookup :
    passes (command .toneLookup 5 (idle [])) (fun t => t.result == 1005 && statusWord t == 0x0004 &&
      passes (command .toneLookup 200 t) (fun u => u.result == 1005 && statusWord u == 0x0000)) = true := by
  decide +kernel

/-- V-WALK-1, the found nodes. -/
theorem test_next_id_walks :
    ([(0, 0x0001, 2), (0, 0xE999, 3), (0, 0x0000, 1), (1, 0x1234, 2), (2, 0xACE1, 3), (2, 0x0002, 1), (3, 0xFFFF, 2),
      (3, 0x0080, 2)] : List (Word16 × Word16 × Word16)).all (fun v =>
      passes (command .nextId v.1 (seeded v.2.1 [])) (fun t => t.result == v.2.2 && t.prng == tripleMix v.2.1)) = true := by
  decide +kernel

/-- V-WALK-1, the last two rows: an absent node, and a total of 0 after a result. -/
theorem test_next_id_corners :
    passes (command .nextId 9 (seeded 0x1234 [])) (fun t => t.result == 9 && t.prng == 0x1234) = true ∧
    passes (command .nextId 4 { seeded 0x0001 [] with status := ⟨false, false, true, .noFault⟩ })
      (fun t => t.prng == 0xE999 && statusWord t == 0x030E) = true := by decide +kernel

/-- V-INIT-1: all-one window, samples `0x0123`, `0x0456`, `0x0789`. -/
theorem test_prng_init :
    passes (exec .prngInit { idle [] with
      env := { Env.silent with bootIn := List.replicate 1024 1, adcIn := [0x0123, 0x0456, 0x0789] } })
      (fun t => t.result == 0x5F3F && t.prng == 0x5F3F && statusWord t == 0x000C) = true := by
  decide +kernel

theorem test_prng_init_again :
    passes (exec .prngInit (seeded 1 [])) (fun t => statusWord t == 0x050A && t.tr.isEmpty) = true := by decide +kernel

/-- V-ADV-1. -/
theorem test_prng_advance :
    passes (exec .prngAdvance (seeded 0xE999 [])) (fun t => t.result == 0xD9A3 && t.prng == 0xD9A3) = true := by
  decide +kernel

/-- V-UPD-1, and `PRNG_UNINIT` before the sample. -/
theorem test_prng_update :
    passes (exec .prngUpdate { seeded 0x653F [] with env := { Env.silent with adcIn := [0x0ABC] } })
      (fun t => t.result == 0x792A && t.tr == [.adc 0x0ABC]) = true ∧
    passes (exec .prngUpdate (idle [])) (fun t => statusWord t == 0x0402 && t.tr.isEmpty) = true := by decide +kernel

/-! ### The host slots -/

/-- R21: a write of slot number 2 and a read of slot number 4. -/
theorem test_slot_numbers :
    passes (step (idle [writeAt 2 0xABCD])) (fun t => t.arg1 == 0xABCD && t.arg0 == 0) = true ∧
    passes (step (seeded 1 [readAt 4])) (fun t => t.env.readLog == [(.status, 0x0008)]) = true := by decide +kernel

/-! ### Faults and the primitives -/

/-- 95_test_vectors.md 2.4: the two faults of a fetch. -/
theorem test_fetch_faults :
    passes (step (running [0x040000] 0)) (fun t => statusWord t == 0x0102 && t.pos == 1 && t.tr.isEmpty) = true ∧
    passes (step (running [0x040000] 0xFFFF)) (fun t => statusWord t == 0x0202 && t.pos == 0xFFFF) = true := by
  decide +kernel

theorem test_command_faults :
    passes (step { running [] 0 with env := { Env.silent with script := [.write .cmd 3] } })
      (fun t => statusWord t == 0x0602) = true ∧
    passes (step (idle [.write .cmd 0])) (fun t => statusWord t == 0x0702) = true := by decide +kernel

/-- V-XS-1 and V-TM-1. -/
theorem test_mix :
    xorshift16 0x8000 = 0xC040 ∧ xorshift16 0xFFFF = 0x7F7F ∧ xorshift16 0xACE1 = 0xD30F ∧ tripleMix 0x0001 = 0xE999 ∧
    tripleMix 0xFFFF = 0xC757 ∧ tripleMix 0x1234 = 0x3828 := by decide

/-- R108: edge order is significant. -/
theorem test_edge_order :
    bucketScan 0 0 [⟨7, 1⟩, ⟨8, 3⟩] = some 7 ∧ bucketScan 0 0 [⟨8, 3⟩, ⟨7, 1⟩] = some 8 := by decide

/-! ### Witnesses: states and operands that meet the hypotheses of the statements -/

/-- Illegal words of each of the three kinds, at the first and at the last position that is fetched. -/
theorem witness_IllegalActionWords :
    (running [0x040000] 0).phase = .run ∧ (running [0x040000] 0).env.script = [] ∧ (running [0x040000] 0).pos ≠ 0xFFFF ∧
    decode (.action (fetchWord (running [0x040000] 0))) = .error (.illegalAction 0x040000) ∧
    decode (.action (fetchWord (running [0x000001] 0))) = .error (.illegalAction 0x000001) ∧
    decode (.action (fetchWord (running [0x03FF00] 0))) = .error (.illegalAction 0x03FF00) ∧
    ((0xFFFE : Word16) ≠ 0xFFFF) := ⟨rfl, rfl, by decide, rfl, rfl, rfl, by decide⟩

theorem witness_ActionWordsDecode : 128 ≤ (128 : Byte).toNat ∧ 128 ≤ (255 : Byte).toNat := by decide

theorem witness_CommandCodes :
    (idle []).phase ≠ .fault ∧ (idle []).status.busy = false ∧ (0x0000 : Word16).toNat = 0 ∧ 8 ≤ (0x0008 : Word16).toNat ∧
    8 ≤ (0xFFFF : Word16).toNat := by decide

/-- Both clauses: the last position inside, the first past the end, and the top. -/
theorem witness_AuthoredSequenceReadsBack :
    encodeSeq [.led 0x81, .note 69, .endAct] = some [0x030081, 0x020045, 0x000000] ∧
    mem.seqs[(0 : Byte).toNat]? = some [0x030081, 0x020045, 0x000000] ∧
    ([.led 0x81, .note 69, .endAct] : List Instr)[(2 : Word16).toNat]? = some .endAct ∧
    3 ≤ (3 : Word16).toNat ∧ 3 ≤ (0xFFFF : Word16).toNat := ⟨rfl, rfl, rfl, by decide, by decide⟩

/-- A run with each of the three scripts, and a position for each of the three clauses. -/
theorem witness_RunStepRunsTheFetchedAction :
    (running [0x0101F4] 0).phase = .run ∧ (running [0x0101F4] 0).env.script = [] ∧
    (∃ rest, ({ running [] 0 with env := { Env.silent with script := [.grant] } } : State).env.script = .grant :: rest) ∧
    ({ running [] 0 with env := { Env.silent with script := [.await] } } : State).status.busy = true ∧
    (running [0x0101F4] 0xFFFF).pos = 0xFFFF ∧ (running [0x0101F4] 0xFFFE).pos ≠ 0xFFFF ∧
    decode (.action (seqRead (running [0x0101F4] 0).mem.seqs 0 0)) = .ok (.wait 500) ∧
    decode (.action (seqRead (running [0x0101F4] 0).mem.seqs 0 0xFFFE)) = .ok .endAct ∧
    decode (.action (seqRead (running [0x040000] 0).mem.seqs 0 0)) = .error (.illegalAction 0x040000) :=
  ⟨rfl, rfl, ⟨[], rfl⟩, rfl, rfl, by decide, rfl, rfl, rfl⟩

/-- A state for each of the four clauses, with the codes at the ends of the legal range. -/
theorem witness_CommandWriteRunsTheCommand :
    (faulted [.write .cmd 1]).env.script = [.write .cmd 1] ∧ (faulted [.write .cmd 1]).phase = .fault ∧
    (running [] 0).phase ≠ .fault ∧ (running [] 0).status.busy = true ∧
    (idle [.write .cmd 1]).phase ≠ .fault ∧ (idle [.write .cmd 1]).status.busy = false ∧
    decode (.command 1) = .ok .run ∧ decode (.command 7) = .ok .prngUpdate ∧
    ¬ (1 ≤ (0 : Word16).toNat ∧ (0 : Word16).toNat ≤ 7) ∧ ¬ (1 ≤ (8 : Word16).toNat ∧ (8 : Word16).toNat ≤ 7) :=
  ⟨rfl, rfl, by decide, rfl, by decide, rfl, rfl, rfl, by decide, by decide⟩

theorem witness_RaisingAFault :
    (running [0x040000] 0).phase ≠ .fault ∧
    passes (step (running [0x040000] 0)) (fun t => t.phase == .fault) = true := by decide +kernel

/-- The first position past the end, and the last position below the top. -/
theorem witness_EndMutesAndReports :
    (running [0x0101F4] 1).phase = .run ∧ (running [0x0101F4] 1).env.script = [] ∧
    seqLen (running [0x0101F4] 1).mem (running [0x0101F4] 1).curSeq ≤ (running [0x0101F4] 1).pos.toNat ∧
    (running [0x0101F4] 65534).pos.toNat < 65535 := ⟨rfl, rfl, by decide, by decide⟩

theorem witness_NoteProgramsTheTone :
    (0 : Byte).toNat < 128 ∧ (127 : Byte).toNat < 128 ∧ 128 ≤ (128 : Byte).toNat := by decide

/-- The last sequence id, and the first absent one. -/
theorem witness_RunStartsOrFaults :
    (({ idle [] with arg1 := 1 } : State).arg1.setWidth 8).toNat < (idle []).mem.seqs.length ∧
    (idle []).mem.seqs.length ≤ (({ idle [] with arg1 := 2 } : State).arg1.setWidth 8).toNat := by decide

theorem witness_ToneLookupReportsTheEntry :
    (({ idle [] with arg0 := 127 } : State).arg0.setWidth 8).toNat < 128 ∧
    128 ≤ (({ idle [] with arg0 := 128 } : State).arg0.setWidth 8).toNat := by decide

theorem witness_NextIdOfAbsentNode :
    ∀ n ∈ ({ idle [] with arg0 := 9 } : State).mem.graph, n.id ≠ ({ idle [] with arg0 := 9 } : State).arg0.setWidth 8 := by
  show ∀ n ∈ graphG, n.id ≠ 9
  simp [graphG]

/-- The absent node 9; node 4, found, with a total of 0; node 0, found: the second of its three edges encloses
`r = 1`, as R111 works out, and the unseeded machine. -/
theorem witness_NextIdFollowsItsSteps :
    (∀ n ∈ graphG, n.id ≠ (9 : Word16).setWidth 8) ∧
    graphG = graphG.take 4 ++ ⟨4, 4, []⟩ :: [] ∧ (∀ m ∈ graphG.take 4, m.id ≠ (4 : Word16).setWidth 8) ∧
    (4 : Byte) = (4 : Word16).setWidth 8 ∧ (seeded 1 []).seeded = true ∧ totalWeight [] = 0 ∧ (idle []).seeded = false ∧
    (seeded 1 []).mem.graph = [] ++ ⟨0, 0, [⟨1, 1⟩, ⟨2, 1⟩, ⟨3, 2⟩]⟩ :: graphG.drop 1 ∧
    (0 : Byte) = (seeded 1 []).arg0.setWidth 8 ∧
    ([⟨1, 1⟩, ⟨2, 1⟩, ⟨3, 2⟩] : List Edge) = [⟨1, 1⟩] ++ ⟨2, 1⟩ :: [⟨3, 2⟩] ∧
    totalWeight [⟨1, 1⟩] ≤ (tripleMix (seeded 1 []).prng).toNat % totalWeight [⟨1, 1⟩, ⟨2, 1⟩, ⟨3, 2⟩] ∧
    (tripleMix (seeded 1 []).prng).toNat % totalWeight [⟨1, 1⟩, ⟨2, 1⟩, ⟨3, 2⟩] <
      totalWeight [⟨1, 1⟩] + (1 : Byte).toNat :=
  ⟨by simp [graphG], rfl, by simp [graphG], rfl, rfl, rfl, rfl, rfl, rfl, rfl, by decide, by decide⟩

theorem witness_NextIdAlwaysPicksAnEdge :
    (seeded 1 []).mem.graph.find? (fun m => m.id == (seeded 1 []).arg0.setWidth 8) =
      some ⟨0, 0, [⟨1, 1⟩, ⟨2, 1⟩, ⟨3, 2⟩]⟩ ∧
    (seeded 1 []).seeded = true ∧ 0 < totalWeight [⟨1, 1⟩, ⟨2, 1⟩, ⟨3, 2⟩] := ⟨rfl, rfl, by decide⟩

/-- Both states of `SEEDED`, with a queue of fixed samples that ends after the third and one that ends after the first. -/
theorem witness_PrngInitFoldsTheDraws :
    (seeded 1 []).seeded = true ∧ (idle []).seeded = false ∧
    ({ Env.silent with adcIn := [1, 2, 3] } : Env).adcIn[2]? = some 3 ∧
    ({ Env.silent with adcIn := [1] } : Env).adcIn[0]? = some 1 := ⟨rfl, rfl, rfl, rfl⟩

theorem witness_PrngAdvanceMixesTheState : (seeded 1 []).seeded = true ∧ (idle []).seeded = false := ⟨rfl, rfl⟩

theorem witness_PrngUpdateFoldsOneSample :
    (seeded 1 []).seeded = true ∧ (idle []).seeded = false ∧
    ∃ rest, ({ Env.silent with adcIn := [0x0ABC] } : Env).adcIn = 0x0ABC :: rest := ⟨rfl, rfl, [], rfl⟩

theorem witness_HostAccessesOfTheSlots :
    (idle [.read .status]).env.script = .read .status :: [] ∧ (seeded 1 [.read .prng]).seeded = true ∧
    (idle [.write .arg0 7]).env.script = .write .arg0 7 :: [] ∧
    (faulted [.write .reserved7 7]).env.script = .write .reserved7 7 :: [] := ⟨rfl, rfl, rfl, rfl⟩

/-- A write at each bound of the clauses on slot numbers, and a read of the last register. -/
theorem witness_SlotNumbersFollowTheTable :
    (idle [writeAt 0 1]).env.script = writeAt 0 1 :: [] ∧ (faulted [writeAt 2 1]).env.script = writeAt 2 1 :: [] ∧
    3 ≤ (3 : BitVec 3).toNat ∧ 3 ≤ (7 : BitVec 3).toNat ∧ (seeded 1 [readAt 5]).env.script = readAt 5 :: [] ∧
    (seeded 1 [readAt 5]).seeded = true := ⟨rfl, rfl, by decide, by decide, rfl, rfl⟩

theorem witness_PowerCycleResets : (faulted [.powerCycle]).env.script = .powerCycle :: [] := rfl

/-- A faulted machine with each first access that the clauses name, and one that is none of them. -/
theorem witness_FaultIsTerminal :
    (faulted [.write .cmd 1]).phase = .fault ∧ (faulted [.write .cmd 1]).env.script = .write .cmd 1 :: [] ∧
    (faulted [.read .status]).env.script = .read .status :: [] ∧ (faulted [.powerCycle]).env.script = .powerCycle :: [] ∧
    (faulted [.driveLow .clk]).env.script.head? ≠ some .powerCycle ∧
    (faulted [.driveLow .clk]).env.script.head? = some (.driveLow .clk) ∧ Line.data ≠ .clk ∧
    (faulted [.driveLow .clk]).dev.level .clk = .unknown ∧ (∃ t, step (faulted [.driveLow .clk]) = .next t) :=
  ⟨rfl, rfl, rfl, rfl, by decide, rfl, by decide, rfl, _, rfl⟩

/-- Stores with two authored sequences. -/
theorem witness_InvariantHoldsAtReset : mem.wf = true := by decide

/-- A run with a sounding tone, in the middle of a sequence. -/
def sounding : State :=
  { running [0x020045, 0x000000] 1 with
    tr := [.pwmFreq 1069, .pwmDuty 3 511, .pwmEn 3]
    dev := { Devices.powerOn with pwmFreq := .known 1069, pwmDuty := .known 511, pwmEn := .high } }

theorem witness_EveryStepKeepsTheInvariant : Coherent sounding ∧ ∃ t, step sounding = .next t := by
  refine ⟨⟨rfl, rfl, by decide, by decide, fun _ => rfl, ?_, fun _ => by decide, by decide, ?_, by decide, by decide,
    rfl, by decide⟩, _, rfl⟩
  · intro r h
    cases h
  · intro l
    cases l <;> exact .inl rfl

/-- The first two positions of sequence 0 hold actions, the third an `End`. -/
theorem witness_RunPerformsItsActions :
    (running [0x030081, 0x020045, 0x000000] 0).phase = .run ∧
    EndsAt (running [0x030081, 0x020045, 0x000000] 0).mem 0 0 2 := by
  refine ⟨rfl, by decide, by decide, rfl, ?_⟩
  intro j _ h
  match j, h with
  | 0, _ => exact ⟨.led 0x81, rfl, by decide⟩
  | 1, _ => exact ⟨.note 69, rfl, by decide⟩

theorem witness_RunFaultsAtAnIllegalWord :
    (running [0x030081, 0x040000] 0).phase = .run ∧ BreaksAt (running [0x030081, 0x040000] 0).mem 0 0 1 := by
  refine ⟨rfl, by decide, by decide, ⟨_, rfl⟩, ?_⟩
  intro j _ h
  match j, h with
  | 0, _ => exact ⟨.led 0x81, rfl, by decide⟩

/-- The longest sequence, of `Wait(500)` only, at the last position it holds. -/
theorem witness_RunOverflowsAtTheTop :
    (running (List.replicate 65535 0x0101F4) 65534).phase = .run ∧
    ∀ j, 65534 ≤ j → j < 65535 →
      ∃ i, decodeAction (wordAt (running (List.replicate 65535 0x0101F4) 65534).mem 0 j) = .ok i ∧ i ≠ .endAct := by
  refine ⟨rfl, fun j _ h => ⟨.wait 500, ?_, by decide⟩⟩
  have e : wordAt (running (List.replicate 65535 0x0101F4) 65534).mem 0 j =
      (List.replicate 65535 (0x0101F4 : ActionWord)).getD j 0x000000 := rfl
  rw [e, List.getD_eq_getElem?_getD, List.getElem?_replicate, if_pos h]
  rfl

theorem witness_EveryRunEnds : (running [0x0101F4] 0).phase = .run ∧ (running [0x0101F4] 0).env.script = [] := ⟨rfl, rfl⟩

theorem witness_NoStepWritesAStore : ∃ t, step (running [0x0101F4] 0) = .next t := ⟨_, rfl⟩

theorem witness_TraceOnlyGrows :
    (∃ t, step (idle [.powerCycle]) = .next t) ∧ (idle [.powerCycle]).env.script.head? = some .powerCycle ∧
    (∃ t, step (running [0x0101F4] 0) = .next t) ∧ (running [0x0101F4] 0).env.script.head? ≠ some .powerCycle :=
  ⟨⟨_, rfl⟩, rfl, ⟨_, rfl⟩, by decide⟩

/-- A step that writes `PRNG` of a seeded machine, and one that seeds a machine. -/
theorem witness_OnlyItsCommandsWriteThePrng :
    passes (step (seeded 1 [.write .cmd 6])) (fun t => t.prng != 1) = true ∧ (seeded 1 [.write .cmd 6]).seeded = true ∧
    (idle [.write .cmd 5]).seeded = false ∧ passes (step (idle [.write .cmd 5])) (fun t => t.seeded) = true := by
  decide +kernel

theorem witness_RunIgnoresTheOperandRegisters :
    (running [0x0101F4] 0).phase = .run ∧ (running [0x0101F4] 0).env.script = [] ∧
    (idle [.grant]).env.script.head? = some .grant ∧ (idle [.await]).env.script.head? = some .await :=
  ⟨rfl, rfl, rfl, rfl⟩

/-- Unseeded, and the command that seeds. -/
theorem witness_UnseededPrngIsUnobservable :
    (idle [.write .cmd 5]).seeded = false ∧ passes (step (idle [.write .cmd 5])) (fun t => t.seeded) = true := by
  decide +kernel

/-- Out of a run, and the command that starts one. -/
theorem witness_PositionIsUnobservableOutsideRuns :
    (idle [.write .cmd 1]).phase ≠ .run ∧ passes (step (idle [.write .cmd 1])) (fun t => t.phase == .run) = true := by
  decide +kernel

theorem witness_OutputsChangeOnlyAtTheLatch :
    ({ Devices.powerOn with clk := .low, latch := .low } : Devices).clk = .low ∧
    ({ Devices.powerOn with clk := .low, latch := .low } : Devices).latch = .low := ⟨rfl, rfl⟩

/-- The hypotheses of what an update leaves (`DriverLeaves`), each at its bounds: pulses just wide enough from low and
from unknown lines, and pulses too short. -/
theorem witness_DriverLeaves :
    cfg.srMinUs ≤ cfg.srTotalUs / 27 ∧ 1 ≤ ({ cfg with srTotalUs := 27 } : Config).srTotalUs / 27 ∧
    ({ cfg with srTotalUs := 26 } : Config).srTotalUs / 27 < cfg.srMinUs ∧ Devices.powerOn.clk ≠ .high ∧
    Devices.powerOn.latch ≠ .high := by decide

theorem witness_MixCycleLengths : (1 : Word16) ≠ 0 ∧ 0 < 21844 ∧ 21844 < 21845 := by decide

theorem witness_SeedFoldIgnoresTheWidth : 16 ≤ 16 ∧ 16 ≤ 32 := by decide

/-- A seeded state with `PRNG = 0`, the last nibble, and a sample for each clause on the nibble. -/
theorem witness_UpdateReachesSixteenStates :
    (seeded 0 []).seeded = true ∧ (seeded 0 []).prng = 0 ∧ 15 < 16 ∧ tripleMix 0x0001 &&& 0x000F ≠ 0 ∧
    tripleMix 0x0000 &&& 0x000F = 0 ∧ tripleMix 0x000D &&& 0x000F = 0 := by decide

/-- R119's own example: samples that cancel over an all-zero window. -/
theorem witness_NoiseFoldsToOneMix :
    (idle []).seeded = false ∧ ((1 : Word16) ^^^ 2 ^^^ 3 = 0) ∧
    ({ Env.silent with bootIn := List.replicate 1024 0, adcIn := [1, 2, 3] } : Env).adcIn = 1 :: 2 :: 3 :: [] :=
  ⟨rfl, by decide, rfl⟩

/-- The last `r` of a node, and the lower bound of a middle edge. -/
theorem witness_BucketScanFollowsTheSums :
    3 < totalWeight [⟨1, 1⟩, ⟨2, 1⟩, ⟨3, 2⟩] ∧ totalWeight [⟨1, 1⟩] ≤ 1 ∧
    1 < totalWeight [⟨1, 1⟩] + (1 : Byte).toNat := by decide

/-- `G` is well formed: what node 0 reaches are the nodes 0 to 3. -/
theorem graphG_wf : graphG.WF := by
  have reach : ∀ b, Graph.Reach graphG b → b.toNat < 4 := by
    intro b h
    induction h with
    | start => decide
    | edge _ hn he ih =>
      have h : ∀ n ∈ graphG, n.id.toNat < 4 → n.edges.all (fun e => decide (e.target.toNat < 4)) = true := by
        simp [graphG]
      exact of_decide_eq_true (List.all_eq_true.mp (h _ hn ih) _ he)
  refine ⟨by decide, by simp [graphG], ?_, by simp [graphG, maxEdges]⟩
  intro n hn hr
  have hb := reach _ hr
  revert hb
  revert n
  simp [graphG]

theorem witness_WellFormedTotals :
    graphG.WF ∧ (⟨1, 1, [⟨2, 5⟩]⟩ : Node) ∈ graphG ∧ Graph.Reach graphG 1 :=
  ⟨graphG_wf, by simp [graphG],
    .edge (n := ⟨0, 0, [⟨1, 1⟩, ⟨2, 1⟩, ⟨3, 2⟩]⟩) (e := ⟨1, 1⟩) .start (by simp [graphG]) (by simp)⟩

theorem witness_WalkStaysReachable :
    (seeded 1 []).mem.graph.WF ∧ (seeded 1 []).seeded = true ∧
    Graph.Reach (seeded 1 []).mem.graph ((seeded 1 []).arg0.setWidth 8) := ⟨graphG_wf, rfl, .start⟩

theorem witness_GraphCheckIsSound : graphG.check = true := by decide +kernel

end Sys2Proof.Machine.Tests
end

/-! SUPPORT. What the shared operations, the instructions and the turns do to the read-only stores and to the
parameters: nothing (10_state.md R37). -/

namespace Sys2Proof.Machine

/-! ### The stores between two states -/

/-- `t` holds the stores and the parameters that `s` holds. -/
def SameStores (s t : State) : Prop := t.mem = s.mem ∧ t.cfg = s.cfg

theorem SameStores.refl (s : State) : SameStores s s := ⟨rfl, rfl⟩

theorem SameStores.trans {s t u : State} (hst : SameStores s t) (htu : SameStores t u) : SameStores s u :=
  ⟨htu.1.trans hst.1, htu.2.trans hst.2⟩

/-- Whatever next state the outcome of a step from `s` is, it holds the stores and the parameters of `s`. -/
def StoresKept (s : State) (o : Host.Outcome State Fault Refusal) : Prop := ∀ t, o = .next t → SameStores s t

theorem SameStores.next {s t : State} (hst : SameStores s t) : StoresKept s (.next t) := by
  rintro _ ⟨⟩
  exact hst

theorem storesKept_fault (s : State) (r : Fault) : StoresKept s (.fault r) := by
  rintro _ ⟨⟩

/-- An operation on `s` that leaves the stores alone, then a step from what it gives that keeps them. -/
theorem SameStores.storesKept {s t : State} {o : Host.Outcome State Fault Refusal} (hst : SameStores s t)
    (ho : StoresKept t o) : StoresKept s o := fun u hu => hst.trans (ho u hu)

/-! ### The shared operations -/

theorem sameStores_raiseFault (c : Cause) (x : Option FetchSite) (s : State) : SameStores s (raiseFault c x s) :=
  ⟨raiseFault_mem c x s, raiseFault_cfg c x s⟩

theorem sameStores_completeWith (v : Word16) (s : State) : SameStores s (completeWith v s) :=
  ⟨completeWith_mem v s, completeWith_cfg v s⟩

theorem sameStores_completeVoid (s : State) : SameStores s (completeVoid s) :=
  ⟨completeVoid_mem s, completeVoid_cfg s⟩

theorem sameStores_finishRun (s : State) : SameStores s (finishRun s) :=
  ⟨finishRun_mem s, finishRun_cfg s⟩

theorem sameStores_runStart (q : Byte) (start : Word16) (s : State) : SameStores s (runStart q start s) :=
  ⟨runStart_mem q start s, runStart_cfg q start s⟩

theorem sameStores_srUpdate (p : Byte) (s : State) : SameStores s (srUpdate p s) :=
  ⟨srUpdate_mem p s, srUpdate_cfg p s⟩

theorem sameStores_accept (s : State) : SameStores s (accept s) :=
  ⟨accept_mem s, accept_cfg s⟩

theorem sameStores_advancePos (s : State) : SameStores s (advancePos s) :=
  ⟨advancePos_mem s, advancePos_cfg s⟩

theorem sameStores_withScript (script : List HostInput) (s : State) : SameStores s (withScript script s) :=
  ⟨withScript_mem script s, withScript_cfg script s⟩

theorem sameStores_powerCycle (s : State) : SameStores s (powerCycle s) :=
  ⟨powerCycle_mem s, powerCycle_cfg s⟩

theorem sameStores_emit (evs : List Event) (s : State) : SameStores s (emit evs s) :=
  ⟨emit_mem evs s, emit_cfg evs s⟩

theorem sameStores_adcSample (s : State) : SameStores s (adcSample s).2 := by
  obtain ⟨v, e, he, -⟩ := adcSample_spec s
  rw [he]
  exact sameStores_emit [.adc v] { s with env := e }

theorem sameStores_bootReadAll (count : Nat) (s : State) : SameStores s (bootReadAll count s).2 := by
  rw [(bootReadAll_spec count s).2]
  exact ⟨rfl, rfl⟩

theorem sameStores_foldNoise (seed : Word16) (s : State) : SameStores s (foldNoise seed s).2 :=
  ((sameStores_adcSample s).trans (sameStores_adcSample _)).trans (sameStores_adcSample _)

/-- Every PRNG command that completes ends so: `PRNG` and `SEEDED` written, then `PRNG` reported. -/
theorem sameStores_reportPrng (x : Word16) (seeded : Bool) (s : State) :
    SameStores s (reportPrng { s with prng := x, seeded := seeded }) :=
  sameStores_completeWith x { s with prng := x, seeded := seeded }

/-- A host read moves only the environment: the counter of the free values and the read log. -/
theorem sameStores_hostRead (slot : Slot) (s : State) : SameStores s (hostRead slot s) := by
  cases slot with
  | prng => cases hs : s.seeded <;> simp [SameStores, hostRead, readSlot, anyRead, hs]
  | _ => exact ⟨rfl, rfl⟩

/-! ### The instructions -/

theorem storesKept_execNote (index : Byte) (s : State) : StoresKept s (execNote index s) := by
  unfold execNote
  split
  · exact (sameStores_emit _ s).next
  · exact (SameStores.refl s).next

theorem storesKept_execRun (s : State) : StoresKept s (execRun s) := by
  unfold execRun
  split
  · exact (sameStores_raiseFault ..).next
  · exact (sameStores_runStart ..).next

theorem storesKept_execToneLookup (s : State) : StoresKept s (execToneLookup s) := by
  unfold execToneLookup
  split
  · exact (sameStores_completeWith ..).next
  · exact (sameStores_completeVoid s).next

theorem storesKept_walkFrom (n : Node) (s : State) : StoresKept s (walkFrom n s) := by
  have hprng : SameStores s { s with prng := tripleMix s.prng } := ⟨rfl, rfl⟩
  unfold walkFrom
  split
  · refine hprng.storesKept ?_
    dsimp only
    split
    · exact (sameStores_raiseFault ..).next
    · split
      · exact (sameStores_completeWith ..).next
      · exact storesKept_fault _ _
  · exact (sameStores_raiseFault ..).next

theorem storesKept_execNextId (s : State) : StoresKept s (execNextId s) := by
  unfold execNextId
  split
  · exact (sameStores_completeWith ..).next
  · exact storesKept_walkFrom _ s

theorem storesKept_execPrngInit (s : State) : StoresKept s (execPrngInit s) := by
  unfold execPrngInit
  split
  · exact (sameStores_raiseFault ..).next
  · exact (((sameStores_bootReadAll seedWords s).trans (sameStores_foldNoise _ _)).trans
      (sameStores_reportPrng _ true _)).next

theorem storesKept_execPrngAdvance (s : State) : StoresKept s (execPrngAdvance s) := by
  unfold execPrngAdvance
  split
  · exact (sameStores_reportPrng _ s.seeded s).next
  · exact (sameStores_raiseFault ..).next

theorem storesKept_execPrngUpdate (s : State) : StoresKept s (execPrngUpdate s) := by
  unfold execPrngUpdate
  split
  · exact ((sameStores_adcSample s).trans (sameStores_reportPrng _ _ _)).next
  · exact (sameStores_raiseFault ..).next

/-- No instruction writes a store or a parameter (20_memory.md R51). -/
theorem storesKept_exec (i : Instr) (s : State) : StoresKept s (exec i s) := by
  cases i with
  | endAct => exact ((sameStores_emit _ s).trans (sameStores_finishRun _)).next
  | wait d => exact (sameStores_emit _ s).next
  | note index => exact storesKept_execNote index s
  | led p => exact (sameStores_srUpdate p s).next
  | run => exact storesKept_execRun s
  | srUpdate => exact ((sameStores_srUpdate _ s).trans (sameStores_completeVoid _)).next
  | toneLookup => exact storesKept_execToneLookup s
  | nextId => exact storesKept_execNextId s
  | prngInit => exact storesKept_execPrngInit s
  | prngAdvance => exact storesKept_execPrngAdvance s
  | prngUpdate => exact storesKept_execPrngUpdate s

/-! ### The turns -/

/-- A turn is a step of the block, or the next access from outside, taken off the script; the host awaits only while
the block is busy (log 12). -/
theorem step_eq_blockStep_or_serve (s : State) :
    step s = blockStep s ∨
      ∃ i rest, s.env.script = i :: rest ∧ (i = .await → s.status.busy = false) ∧
        step s = serve i (withScript rest s) := by
  rcases hs : s.env.script with - | ⟨i, rest⟩
  · exact .inl (turn_nil s hs)
  · by_cases hi : i = .await
    · subst hi
      cases hb : s.status.busy with
      | true => exact .inl (turn_await_busy s rest hs hb)
      | false => exact .inr ⟨.await, rest, rfl, fun _ => rfl, turn_await_ready s rest hs hb⟩
    · exact .inr ⟨i, rest, rfl, fun h => absurd h hi, turn_cons s i rest hs hi⟩

theorem storesKept_runStep (s : State) : StoresKept s (runStep s) := by
  unfold runStep
  split
  · exact (sameStores_raiseFault ..).next
  · refine (sameStores_advancePos s).storesKept ?_
    split
    · exact storesKept_exec _ _
    · exact (sameStores_raiseFault ..).next

theorem storesKept_blockStep (s : State) : StoresKept s (blockStep s) := by
  unfold blockStep
  split
  · exact storesKept_runStep s
  · exact (SameStores.refl s).next
  · exact (SameStores.refl s).next

theorem storesKept_hostWriteCmd (c : Word16) (s : State) : StoresKept s (hostWriteCmd c s) := by
  unfold hostWriteCmd
  split
  · exact (SameStores.refl s).next
  · split
    · exact (sameStores_raiseFault ..).next
    · split
      · exact (sameStores_accept s).storesKept (storesKept_exec _ _)
      · exact (sameStores_raiseFault ..).next

theorem storesKept_hostWrite (slot : Slot) (v : Word16) (s : State) : StoresKept s (hostWrite slot v s) := by
  cases slot with
  | cmd => exact storesKept_hostWriteCmd v s
  | _ => exact SameStores.next ⟨rfl, rfl⟩

theorem storesKept_serve (i : HostInput) (s : State) : StoresKept s (serve i s) := by
  cases i with
  | write slot v => exact storesKept_hostWrite slot v s
  | read slot => exact (sameStores_hostRead slot s).next
  | grant => exact storesKept_blockStep s
  | await => exact (SameStores.refl s).next
  | driveLow l => exact SameStores.next ⟨rfl, rfl⟩
  | powerCycle => exact (sameStores_powerCycle s).next

theorem storesKept_step (s : State) : StoresKept s (step s) := by
  obtain hblock | ⟨i, rest, -, -, hserve⟩ := step_eq_blockStep_or_serve s
  · rw [hblock]
    exact storesKept_blockStep s
  · rw [hserve]
    exact (sameStores_withScript rest s).storesKept (storesKept_serve i _)

/-- Settles O37: what a turn can do is a step of the block or one access from outside, and each of them, down to
every instruction, keeps the stores and the parameters. -/
theorem noStepWritesAStore : Obligations.NoStepWritesAStore := storesKept_step

end Sys2Proof.Machine

/-! SUPPORT. The decoder of the action words, tag by tag (30_encoding.md R60 to R67), and what a step of a run does with
a word it refuses. -/

namespace Sys2Proof

/-! ### The fields of a word -/

@[simp] theorem opField_mkAction (op : Byte) (p : Word16) : opField (mkAction op p) = op :=
  BitVec.extractLsb'_append_eq_left

@[simp] theorem payloadField_mkAction (op : Byte) (p : Word16) : payloadField (mkAction op p) = p :=
  BitVec.extractLsb'_append_eq_right

@[simp] theorem highByte_append (h l : Byte) : highByte (h ++ l) = h := BitVec.extractLsb'_append_eq_left

@[simp] theorem lowByte_append (h l : Byte) : lowByte (h ++ l) = l := BitVec.extractLsb'_append_eq_right

/-- `PAYLOAD[15:8]` is bits 15:8 of the word. -/
theorem highByte_payloadField (w : ActionWord) : highByte (payloadField w) = w.extractLsb' 8 8 := by
  ext i hi
  simp [highByte, payloadField]

/-! ### The decoder, one equation per tag -/

section
variable {w : ActionWord}

theorem decodeAction_of_op_zero (h : opField w = 0x00) :
    decodeAction w = if payloadField w = 0x0000 then .ok .endAct else .error (.illegalAction w) := by
  simp [decodeAction, h]

theorem decodeAction_of_op_one (h : opField w = 0x01) : decodeAction w = .ok (.wait (payloadField w)) := by
  simp [decodeAction, h]

theorem decodeAction_of_op_two (h : opField w = 0x02) :
    decodeAction w =
      if highByte (payloadField w) = 0x00 then .ok (.note (lowByte (payloadField w)))
      else .error (.illegalAction w) := by
  simp [decodeAction, h]

theorem decodeAction_of_op_three (h : opField w = 0x03) :
    decodeAction w =
      if highByte (payloadField w) = 0x00 then .ok (.led (lowByte (payloadField w)))
      else .error (.illegalAction w) := by
  simp [decodeAction, h]

theorem decodeAction_of_four_le_op (h : 4 ≤ (opField w).toNat) : decodeAction w = .error (.illegalAction w) := by
  have tag_ne (k : Byte) (hk : k.toNat < 4) : opField w ≠ k := by
    rintro rfl
    omega
  simp only [decodeAction, tag_ne 0x00 (by decide), tag_ne 0x01 (by decide), tag_ne 0x02 (by decide),
    tag_ne 0x03 (by decide), false_and, if_false]

end

/-- The tags the decoder tells apart. -/
theorem op_cases (op : Byte) : op = 0x00 ∨ op = 0x01 ∨ op = 0x02 ∨ op = 0x03 ∨ 4 ≤ op.toNat := by
  bv_omega

/-- The illegal words of R67 (a), (b) and (c), by the fields of the word. -/
def IllegalWord (w : ActionWord) : Prop :=
  4 ≤ (opField w).toNat ∨
    (opField w = 0x00 ∧ payloadField w ≠ 0x0000) ∨
    ((opField w = 0x02 ∨ opField w = 0x03) ∧ highByte (payloadField w) ≠ 0x00)

/-- A decoder that only checks `c` refuses exactly where `c` fails. -/
theorem exists_ite_eq_error_iff {c : Prop} [Decidable c] (i : Instr) (y : Reject) :
    (∃ x, (if c then (.ok i : Except Reject Instr) else .error y) = .error x) ↔ ¬c := by
  by_cases h : c <;> simp [h]

/-- The decoder refuses exactly the words of R67. -/
theorem decodeAction_error_iff (w : ActionWord) : (∃ x, decodeAction w = .error x) ↔ IllegalWord w := by
  unfold IllegalWord
  obtain h | h | h | h | h := op_cases (opField w)
  · rw [decodeAction_of_op_zero h, exists_ite_eq_error_iff]
    simp [h]
  · simp [decodeAction_of_op_one h, h]
  · rw [decodeAction_of_op_two h, exists_ite_eq_error_iff]
    simp [h]
  · rw [decodeAction_of_op_three h, exists_ite_eq_error_iff]
    simp [h]
  · simp [decodeAction_of_four_le_op h, h]

/-! ### The four action words -/

theorem decodeAction_endWord : decodeAction (mkAction 0x00 0x0000) = .ok .endAct := by
  rw [decodeAction_of_op_zero (opField_mkAction _ _), payloadField_mkAction, if_pos rfl]

theorem decodeAction_waitWord (d : Word16) : decodeAction (mkAction 0x01 d) = .ok (.wait d) := by
  rw [decodeAction_of_op_one (opField_mkAction _ _), payloadField_mkAction]

theorem decodeAction_noteWord (i : Byte) : decodeAction (mkAction 0x02 ((0x00 : Byte) ++ i)) = .ok (.note i) := by
  rw [decodeAction_of_op_two (opField_mkAction _ _), payloadField_mkAction, highByte_append, lowByte_append, if_pos rfl]

theorem decodeAction_ledWord (p : Byte) : decodeAction (mkAction 0x03 ((0x00 : Byte) ++ p)) = .ok (.led p) := by
  rw [decodeAction_of_op_three (opField_mkAction _ _), payloadField_mkAction, highByte_append, lowByte_append,
    if_pos rfl]

/-- Three bytes in a row are a tag and a payload of two bytes. -/
theorem append_bytes_eq_mkAction (op h l : Byte) : (op ++ h ++ l : ActionWord) = mkAction op (h ++ l) :=
  BitVec.append_assoc

end Sys2Proof

namespace Sys2Proof.Machine

/-- A run takes one `RunStep` when nothing outside acts (42_sequence_interpreter.md R90). -/
theorem step_of_run (s : State) (hphase : s.phase = .run) (hscript : s.env.script = []) : step s = runStep s := by
  have hblock : blockStep s = runStep s := by simp only [blockStep, hphase]
  exact (turn_nil s hscript).trans hblock

/-- `RunStep` on a word that is no action: `ILLEGAL_ACTION` at the fetched place, after the advance
(60_exceptions.md R142). -/
theorem runStep_of_illegal (s : State) (x : Reject) (hpos : s.pos ≠ topPos)
    (hdecode : decodeAction (fetchWord s) = .error x) :
    runStep s = .next (raiseFault .illegalAction (some (fetchSite s)) (advancePos s)) := by
  simp only [runStep, if_neg hpos, hdecode]

/-- `Note` of an index past the table does nothing (41_tone_selector.md R84). -/
theorem execNote_of_outside (i : Byte) (s : State) (h : 128 ≤ i.toNat) : execNote i s = .next s := by
  simp only [execNote, freqSelect_outside _ _ h]

/-- Settles O3: the decoder's refusals, tag by tag, are the words of R67, and a step of a run on one of them is a
`RunStep` that faults after the advance. -/
theorem illegalActionWords : Obligations.IllegalActionWords := by
  refine ⟨fun w => ?_, fun s x hphase hscript hpos hdecode => ?_⟩
  · rw [← highByte_payloadField]
    exact decodeAction_error_iff w
  · rw [step_of_run s hphase hscript]
    exact runStep_of_illegal s x hpos hdecode

/-- Settles O2: each word is put together from its tag and payload, and its tag's equation of the decoder gives the
operand back. -/
theorem actionWordsDecode : Obligations.ActionWordsDecode := by
  refine ⟨decodeAction_endWord, decodeAction_waitWord, fun i => ?_, fun i s h => execNote_of_outside i s h, fun p => ?_⟩
  · rw [append_bytes_eq_mkAction]
    exact decodeAction_noteWord i
  · rw [append_bytes_eq_mkAction]
    exact decodeAction_ledWord p

end Sys2Proof.Machine

/-! SUPPORT. The events of one update of the shift register, bit by bit (40_shift_register.md R72 to R75): they are the
listed train, and what is counted over them is counted over one bit and over the latch pulse. -/

namespace Sys2Proof.Machine

/-! ### The parts of the train -/

/-- The driver sends a bit as its data level and one clock pulse (40_shift_register.md R72). -/
theorem bitTrain_eq (w : Word32) (b : Bool) : bitTrain w b = .line .data b :: pulse w .clk := rfl

/-- One bit's train for each position, then the latch pulse. -/
theorem srEvents_eq_flatMap (w : Word32) (p : Byte) :
    srEvents w p = (bitOrder.flatMap fun i => bitTrain w (p.getLsbD i)) ++ pulse w .latch := rfl

/-- The driver's loop over the bit positions, written out, is the train of R75. -/
theorem srEvents_eq_srTrain (w : Word32) (p : Byte) : srEvents w p = srTrain w p := by
  simp only [srEvents_eq_flatMap, bitOrder, List.flatMap_cons, List.flatMap_nil, List.append_nil, srTrain, pulse,
    List.append_assoc]

/-- Events that every bit's train holds equally often, whatever the bit, are counted over an update as eight times one
bit's and the latch pulse's. -/
theorem countP_srEvents (q : Event → Bool) (w : Word32) (p : Byte) (n : Nat)
    (hbit : ∀ b, (bitTrain w b).countP q = n) : (srEvents w p).countP q = 8 * n + (pulse w .latch).countP q := by
  simp only [srEvents_eq_flatMap, List.countP_append, List.countP_flatMap, Function.comp_def, hbit,
    List.map_const', List.sum_replicate, smul_eq_mul]
  rfl

/-! ### The events on a line -/

/-- The event drives line `l`, to either level. -/
def drives (l : Line) (e : Event) : Bool := decide (e = .line l true ∨ e = .line l false)

@[simp] theorem drives_line (l m : Line) (b : Bool) : drives l (.line m b) = decide (m = l) := by
  cases b <;> simp [drives]

@[simp] theorem drives_delayUs (l : Line) (n : Word32) : drives l (.delayUs n) = false := by simp [drives]

/-- A pulse drives its own line twice, up and down, and no other (40_shift_register.md R73). -/
theorem countP_drives_pulse (l m : Line) (w : Word32) :
    (pulse w m).countP (drives l) = if m = l then 2 else 0 := by
  by_cases h : m = l <;> simp [pulse, h]

theorem countP_drives_bitTrain (l : Line) (w : Word32) (b : Bool) :
    (bitTrain w b).countP (drives l) = (if Line.clk = l then 2 else 0) + if Line.data = l then 1 else 0 := by
  simp only [bitTrain_eq, List.countP_cons, countP_drives_pulse, drives_line, decide_eq_true_eq]

/-- How often one update drives each line (40_shift_register.md R75). -/
theorem countP_drives_srEvents (l : Line) (w : Word32) (p : Byte) :
    (srEvents w p).countP (drives l) = match l with | .data => 8 | .clk => 16 | .latch => 2 := by
  rw [countP_srEvents _ w p _ (countP_drives_bitTrain l w), countP_drives_pulse]
  cases l <;> rfl

/-! ### The delays -/

theorem countP_delayUs_pulse (l : Line) (w : Word32) :
    (pulse w l).countP (fun e => decide (e = .delayUs w)) = 3 := by
  simp [pulse]

theorem countP_delayUs_bitTrain (w : Word32) (b : Bool) :
    (bitTrain w b).countP (fun e => decide (e = .delayUs w)) = 3 := by
  simp [bitTrain_eq, countP_delayUs_pulse]

/-- Nine pulses of three delays each (40_shift_register.md R74). -/
theorem countP_delayUs_srEvents (w : Word32) (p : Byte) :
    (srEvents w p).countP (fun e => decide (e = .delayUs w)) = 27 := by
  rw [countP_srEvents _ w p 3 (countP_delayUs_bitTrain w), countP_delayUs_pulse]

/-- Settles O43: the train bit by bit is the listed one, its events are counted over the parts, and the sub-phase is the
budget's 27th part rounded down. -/
theorem updateIsTheListedTrain : Obligations.UpdateIsTheListedTrain :=
  ⟨fun w p => ⟨srEvents_eq_srTrain w p, srEvents_length w p, countP_drives_srEvents .data w p,
    countP_drives_srEvents .clk w p, countP_drives_srEvents .latch w p, countP_delayUs_srEvents w p⟩,
    fun c => Nat.mul_div_le c.srTotalUs 27⟩

end Sys2Proof.Machine

/-! SUPPORT. The Sequence Interpreter's own instructions and `Note`, one next state per case, and the implicit `End`
(42_sequence_interpreter.md R89 to R94). -/

namespace Sys2Proof.Machine

/-! ### Fetching an action -/

/-- `RunStep` on a word that is an action: the action's meaning, after the advance (42_sequence_interpreter.md R90). -/
theorem runStep_of_action (s : State) (i : Instr) (hpos : s.pos ≠ topPos)
    (hdecode : decodeAction (fetchWord s) = .ok i) : runStep s = exec i (advancePos s) := by
  simp only [runStep, if_neg hpos, hdecode]

/-- A position below 65535 is not the top one. -/
theorem ne_topPos_of_lt {i : Word16} (h : i.toNat < 65535) : i ≠ topPos := by
  rintro rfl
  exact absurd h (by decide)

/-- Past its end a sequence reads the `End` word (20_memory.md R44). -/
theorem fetchWord_past_end (s : State) (h : seqLen s.mem s.curSeq ≤ s.pos.toNat) :
    fetchWord s = mkAction 0x00 0x0000 :=
  seqRead_past_end s.mem.seqs s.curSeq s.pos h

/-- `RunStep` past the end of the sequence runs an implicit `End`, after the advance. -/
theorem runStep_past_end (s : State) (hend : seqLen s.mem s.curSeq ≤ s.pos.toNat) (hpos : s.pos.toNat < 65535) :
    runStep s = execEndAct (advancePos s) := by
  have hdecode : decodeAction (fetchWord s) = .ok .endAct := by
    rw [fetchWord_past_end s hend, decodeAction_endWord]
  exact runStep_of_action s .endAct (ne_topPos_of_lt hpos) hdecode

/-! ### `End` -/

/-- `End` leaves free values in `POS` and `CUR_SEQ` (10_state.md R38, log 9). -/
theorem execEndAct_eq (s : State) : execEndAct s = .next { s with
    phase := .idle
    pos := Config.freePos s.env.fresh
    curSeq := Config.freeSeqId s.env.fresh
    result := s.pos
    status := ⟨false, s.status.fault, true, s.status.cause⟩
    tr := s.tr ++ [.pwmDis s.cfg.pwmCh]
    dev := { s.dev with pwmEn := .low }
    env := { s.env with fresh := s.env.fresh + 1 } } := rfl

/-- Settles O11: `End` by its next state; an implicit `End` is that next state after the advance, which does not wrap
below the top position. -/
theorem endMutesAndReports : Obligations.EndMutesAndReports := by
  refine ⟨decodeAction_endWord, fun s => ⟨_, _, _, execEndAct_eq s⟩, fun s hphase hscript hend hpos => ?_⟩
  have hstep : step s = execEndAct (advancePos s) := by
    rw [step_of_run s hphase hscript, runStep_past_end s hend hpos]
  have hadvance : (s.pos + 1).toNat = s.pos.toNat + 1 := BitVec.toNat_add_of_lt (y := 1) (Nat.succ_lt_succ hpos)
  exact ⟨_, hstep.trans (execEndAct_eq _), rfl, hadvance, rfl, rfl, rfl⟩

/-! ### `Wait` -/

/-- No device reacts to a delay. -/
theorem emit_delayMs (n : Word32) (s : State) : emit [.delayMs n] s = { s with tr := s.tr ++ [.delayMs n] } := rfl

theorem execWait_eq (d : Word16) (s : State) :
    execWait d s = .next { s with tr := s.tr ++ [.delayMs (d.setWidth 32)] } :=
  congrArg Host.Outcome.next (emit_delayMs (zext32 d) s)

/-- Settles O12: the decoder's equation for the tag, and a delay as an event that only the trace takes. -/
theorem waitAppendsItsDelay : Obligations.WaitAppendsItsDelay :=
  fun d s => ⟨decodeAction_waitWord d, execWait_eq d s⟩

/-! ### `Note` -/

/-- Programming the tone sets the three fields of the PWM source (41_tone_selector.md R86, 10_state.md R36). -/
theorem toneProgram_eq (hz : Word16) (s : State) : toneProgram hz s = { s with
    tr := s.tr ++ [.pwmFreq hz, .pwmDuty s.cfg.pwmCh (halfDuty s.cfg), .pwmEn s.cfg.pwmCh]
    dev := { s.dev with pwmFreq := .known hz, pwmDuty := .known (halfDuty s.cfg), pwmEn := .high } } := rfl

/-- `Note` of an index in the table programs the frequency there (41_tone_selector.md R82). -/
theorem execNote_of_inside (i : Byte) (s : State) (h : i.toNat < 128) :
    execNote i s = .next (toneProgram (s.mem.freqTable[i.toNat]'h) s) := by
  simp only [execNote, freqSelect_inside _ _ h]

/-- Settles O13: inside the table `Note` is one `ToneProgram`, outside it nothing. -/
theorem noteProgramsTheTone : Obligations.NoteProgramsTheTone := by
  intro i s
  refine ⟨?_, fun h => ?_, execNote_of_outside i s⟩
  · rw [append_bytes_eq_mkAction]
    exact decodeAction_noteWord i
  · exact (execNote_of_inside i s h).trans (congrArg Host.Outcome.next (toneProgram_eq _ s))

/-! ### `RUN` -/

theorem decodeCommand_run : decodeCommand 0x0001 = .ok .run := if_pos rfl

/-- `RUN` of a sequence the store holds starts it (42_sequence_interpreter.md R89). -/
theorem execRun_of_present (s : State) (h : (seqOperand s).toNat < numSeq s.mem) :
    execRun s = .next (runStart (seqOperand s) (startOperand s) s) :=
  if_neg (Nat.not_le.mpr h)

/-- `RUN` of a sequence the store does not hold faults (45_host_commands.md R127). -/
theorem execRun_of_absent (s : State) (h : numSeq s.mem ≤ (seqOperand s).toNat) :
    execRun s = .next (raiseFault .badSeq none s) :=
  if_pos h

/-- `ARG1[7:0]` is `ARG1` cut to eight bits. -/
theorem seqOperand_eq_setWidth (s : State) : seqOperand s = s.arg1.setWidth 8 :=
  (BitVec.setWidth_eq_extractLsb' (by decide)).symm

/-- Settles O15: the two arms of `RUN`, told apart by whether the store holds the sequence of `ARG1[7:0]`. -/
theorem runStartsOrFaults : Obligations.RunStartsOrFaults := by
  refine ⟨decodeCommand_run, fun s => ?_⟩
  rw [← seqOperand_eq_setWidth]
  exact ⟨execRun_of_present s, execRun_of_absent s⟩

end Sys2Proof.Machine

/-! SUPPORT. The Random-Walk Generator (43_random_walk.md R101 to R107): the bucket scan by its running sums, the first
node of an id, and one next state per arm of `NEXT_ID`. -/

namespace Sys2Proof.Machine

/-! ### The running sums -/

theorem totalWeight_append_cons (lower upper : List Edge) (e : Edge) :
    totalWeight (lower ++ e :: upper) = totalWeight lower + e.weight.toNat + totalWeight upper := by
  induction lower with
  | nil => simp only [List.nil_append, totalWeight, Nat.zero_add]
  | cons d lower ih => simp only [List.cons_append, totalWeight, ih, Nat.add_assoc]

/-- The running sums reach the total, so a number below it lies under one of them first: that edge encloses it. -/
theorem exists_enclosing_edge {r : Nat} {es : List Edge} (h : r < totalWeight es) :
    ∃ lower e upper, es = lower ++ e :: upper ∧ totalWeight lower ≤ r ∧ r < totalWeight lower + e.weight.toNat := by
  induction es generalizing r with
  | nil => exact absurd h (Nat.not_lt_zero r)
  | cons d es ih =>
    rw [totalWeight] at h
    by_cases hd : r < d.weight.toNat
    · exact ⟨[], d, es, rfl, Nat.zero_le r, by simpa [totalWeight] using hd⟩
    · obtain ⟨lower, e, upper, rfl, hlower, hupper⟩ := ih (r := r - d.weight.toNat) (by omega)
      refine ⟨d :: lower, e, upper, rfl, ?_, ?_⟩ <;> simp only [totalWeight] <;> omega

/-! ### The bucket scan -/

/-- The scan passes over the edges whose running sums do not exceed `r`, and keeps their sum. -/
theorem bucketScan_append_of_le {r upper : Nat} {lower : List Edge} (es : List Edge)
    (h : upper + totalWeight lower ≤ r) :
    bucketScan r upper (lower ++ es) = bucketScan r (upper + totalWeight lower) es := by
  induction lower generalizing upper with
  | nil => rfl
  | cons d lower ih =>
    rw [totalWeight, ← Nat.add_assoc] at h ⊢
    have hd : ¬r < upper + d.weight.toNat := by omega
    rw [List.cons_append, bucketScan, if_neg hd, ih h]

/-- The scan stops at the edge whose running sums enclose `r` (43_random_walk.md R107). -/
theorem bucketScan_of_enclosing {r : Nat} {lower : List Edge} (upper : List Edge) {e : Edge}
    (hlower : totalWeight lower ≤ r) (hupper : r < totalWeight lower + e.weight.toNat) :
    bucketScan r 0 (lower ++ e :: upper) = some e.target := by
  rw [← Nat.zero_add (totalWeight lower)] at hlower hupper
  rw [bucketScan_append_of_le _ hlower, bucketScan, if_pos hupper]

/-- Settles O50: below the total some edge encloses `r`, and the scan stops at the edge that does. -/
theorem bucketScanFollowsTheSums : Obligations.BucketScanFollowsTheSums := by
  refine ⟨fun r es h => ?_, fun r lower upper e => bucketScan_of_enclosing upper⟩
  obtain ⟨lower, e, upper, rfl, hlower, hupper⟩ := exists_enclosing_edge h
  exact ⟨lower, e, upper, rfl, hlower, hupper, bucketScan_of_enclosing upper hlower hupper⟩

/-! ### The node of an id -/

/-- `ARG0[7:0]` is `ARG0` cut to eight bits. -/
theorem byteOperand_eq_setWidth (s : State) : byteOperand s = s.arg0.setWidth 8 :=
  (BitVec.setWidth_eq_extractLsb' (by decide)).symm

theorem findNode_eq_none {g : Graph} {cur : Byte} (h : ∀ n ∈ g, n.id ≠ cur) : findNode g cur = none :=
  List.find?_eq_none.mpr fun n hn => by simpa using h n hn

/-- Of several nodes with one id the first in declared order is the one found (43_random_walk.md R103). -/
theorem findNode_append_cons {before : Graph} (after : Graph) {n : Node} {cur : Byte}
    (hbefore : ∀ m ∈ before, m.id ≠ cur) (hn : n.id = cur) : findNode (before ++ n :: after) cur = some n := by
  have hnone : before.find? (fun m => m.id == cur) = none := findNode_eq_none hbefore
  rw [findNode, List.find?_append, hnone, Option.none_or]
  exact List.find?_cons_of_pos (by simpa using hn)

/-! ### `NEXT_ID` -/

theorem decodeCommand_nextId : decodeCommand 0x0004 = .ok .nextId := rfl

/-- `NEXT_ID` of an absent node reports the id itself (43_random_walk.md R102). -/
theorem execNextId_of_absent {s : State} (h : ∀ n ∈ s.mem.graph, n.id ≠ byteOperand s) :
    execNextId s = .next (completeWith (zext16 (byteOperand s)) s) := by
  rw [execNextId, findNode_eq_none h]

theorem execNextId_of_found {s : State} {n : Node} (h : findNode s.mem.graph (byteOperand s) = some n) :
    execNextId s = walkFrom n s := by
  rw [execNextId, h]

/-- Before the PRNG write: an unseeded machine faults (43_random_walk.md R101 step 3). -/
theorem walkFrom_of_unseeded {s : State} (n : Node) (h : s.seeded = false) :
    walkFrom n s = .next (raiseFault .prngUninit none s) := by
  simp [walkFrom, h]

/-- After the PRNG write: a zero total faults (43_random_walk.md R101 step 4, R105). -/
theorem walkFrom_of_zero_total {s : State} {n : Node} (hseeded : s.seeded = true) (htotal : totalWeight n.edges = 0) :
    walkFrom n s = .next (raiseFault .zeroTotal none { s with prng := tripleMix s.prng }) := by
  simp [walkFrom, hseeded, htotal]

/-- With a positive total the walk reports the target that the scan returns (43_random_walk.md R101 step 5). -/
theorem walkFrom_of_scan {s : State} {n : Node} {target : Byte} (hseeded : s.seeded = true)
    (htotal : totalWeight n.edges ≠ 0)
    (hscan : bucketScan ((tripleMix s.prng).toNat % totalWeight n.edges) 0 n.edges = some target) :
    walkFrom n s = .next (completeWith (zext16 target) { s with prng := tripleMix s.prng }) := by
  simp [walkFrom, hseeded, htotal, hscan]

/-- An edge that encloses a number has a positive weight, so the total is positive and the walk takes that edge. -/
theorem walkFrom_of_enclosing {s : State} {n : Node} {lower upper : List Edge} {e : Edge} (hseeded : s.seeded = true)
    (hedges : n.edges = lower ++ e :: upper)
    (hlower : totalWeight lower ≤ (tripleMix s.prng).toNat % totalWeight n.edges)
    (hupper : (tripleMix s.prng).toNat % totalWeight n.edges < totalWeight lower + e.weight.toNat) :
    walkFrom n s = .next (completeWith (zext16 e.target) { s with prng := tripleMix s.prng }) := by
  have htotal : totalWeight n.edges ≠ 0 := by
    rw [hedges, totalWeight_append_cons]
    omega
  have hscan := bucketScan_of_enclosing upper hlower hupper
  rw [← hedges] at hscan
  exact walkFrom_of_scan hseeded htotal hscan

/-- Settles O18: no node is found, and the id is reported with `PRNG` untouched. -/
theorem nextIdOfAbsentNode : Obligations.NextIdOfAbsentNode := by
  intro s h
  rw [← byteOperand_eq_setWidth] at h ⊢
  exact execNextId_of_absent h

/-- Settles O19: the absent node as in O18; else the first node of the id is found and the walk from it takes its
unseeded arm, its zero total or the edge that encloses the remainder. -/
theorem nextIdFollowsItsSteps : Obligations.NextIdFollowsItsSteps := by
  refine ⟨decodeCommand_nextId, nextIdOfAbsentNode, fun s before after n hgraph hbefore hn => ?_⟩
  rw [← byteOperand_eq_setWidth] at hbefore hn
  have hfound : findNode s.mem.graph (byteOperand s) = some n := by
    rw [hgraph]
    exact findNode_append_cons after hbefore hn
  have hwalk : exec .nextId s = walkFrom n s := execNextId_of_found hfound
  rw [hwalk]
  exact ⟨walkFrom_of_unseeded n, walkFrom_of_zero_total, fun lower upper e => walkFrom_of_enclosing⟩

end Sys2Proof.Machine

/-! SUPPORT. The PRNG Subsystem (44_prng.md R116 to R118): the seed fold by its accumulators modulo `2^16`, and the two
arms of `PRNG_ADVANCE`. -/

namespace Sys2Proof.Machine

/-! ### The seed fold -/

/-- A fold step depends only on the accumulator modulo `2^16` (44_prng.md R118). -/
theorem mul_add_mod_of_mod (a word : Nat) : (a * 97 + word) % 2 ^ 16 = (a % 2 ^ 16 * 97 + word) % 2 ^ 16 := by
  omega

theorem toNat_foldWord (seed word : Word16) :
    (foldWord seed word).toNat = (seed.toNat * 97 + word.toNat) % 2 ^ 16 := by
  simp [foldWord]

/-- A step that agrees modulo `2^16` with `a * 97 + w` folds every boot window to the seed: throughout the fold its
accumulator, truncated, is the 16-bit one. -/
theorem foldl_mod_eq_seedFold {f : Nat → Word16 → Nat}
    (hf : ∀ a w, f a w % 2 ^ 16 = (a * 97 + w.toNat) % 2 ^ 16) (ws : List Word16) :
    ws.foldl f 0 % 2 ^ 16 = (seedFold ws).toNat := by
  refine List.foldl_rel (r := fun a seed => a % 2 ^ 16 = BitVec.toNat seed) rfl fun w _ a seed h => ?_
  calc f a w % 2 ^ 16
      = (a % 2 ^ 16 * 97 + w.toNat) % 2 ^ 16 := (hf a w).trans (mul_add_mod_of_mod a w.toNat)
    _ = (foldWord seed w).toNat := by rw [h, toNat_foldWord]

/-- Settles O47: a step of at least 16 bits, and the unbounded one, agree with the 16-bit step modulo `2^16`. -/
theorem seedFoldIgnoresTheWidth : Obligations.SeedFoldIgnoresTheWidth := by
  refine ⟨mul_add_mod_of_mod, fun ws => ⟨fun width hwidth => ?_, foldl_mod_eq_seedFold (fun _ _ => rfl) ws⟩⟩
  exact foldl_mod_eq_seedFold (fun _ _ => Nat.mod_mod_of_dvd _ (Nat.pow_dvd_pow 2 hwidth)) ws

/-! ### `PRNG_ADVANCE` -/

theorem decodeCommand_prngAdvance : decodeCommand 0x0006 = .ok .prngAdvance := rfl

/-- A seeded `PRNG_ADVANCE` mixes the state and reports it (44_prng.md R116). -/
theorem execPrngAdvance_of_seeded {s : State} (h : s.seeded = true) :
    execPrngAdvance s = .next (reportPrng { s with prng := tripleMix s.prng }) :=
  if_pos h

/-- An unseeded `PRNG_ADVANCE` faults (45_host_commands.md R133). -/
theorem execPrngAdvance_of_unseeded {s : State} (h : s.seeded = false) :
    execPrngAdvance s = .next (raiseFault .prngUninit none s) :=
  if_neg (Bool.eq_false_iff.mp h)

/-- Settles O22: the two arms of `PRNG_ADVANCE`, told apart by `SEEDED`. -/
theorem prngAdvanceMixesTheState : Obligations.PrngAdvanceMixesTheState :=
  ⟨decodeCommand_prngAdvance, fun _ => ⟨execPrngAdvance_of_seeded, execPrngAdvance_of_unseeded⟩⟩

end Sys2Proof.Machine

/-! SUPPORT. The host's commands (45_host_commands.md): the two arms of `TONE_LOOKUP` (R130), and the operands as
latched: in a run no operation of the block reads or writes `ARG0` and `ARG1` (R125). -/

namespace Sys2Proof.Machine

/-! ### `TONE_LOOKUP` -/

theorem decodeCommand_toneLookup : decodeCommand 0x0003 = .ok .toneLookup := rfl

/-- `TONE_LOOKUP` of an index in the table reports the frequency there (41_tone_selector.md R82). -/
theorem execToneLookup_of_inside (s : State) (h : (byteOperand s).toNat < 128) :
    execToneLookup s = .next (completeWith (s.mem.freqTable[(byteOperand s).toNat]'h) s) := by
  simp only [execToneLookup, freqSelect_inside _ _ h]

/-- `TONE_LOOKUP` of an index past the table reports nothing (41_tone_selector.md R84). -/
theorem execToneLookup_of_outside (s : State) (h : 128 ≤ (byteOperand s).toNat) :
    execToneLookup s = .next (completeVoid s) := by
  simp only [execToneLookup, freqSelect_outside _ _ h]

/-- Settles O17: the two arms of `TONE_LOOKUP`, told apart by whether the table holds the index of `ARG0[7:0]`. -/
theorem toneLookupReportsTheEntry : Obligations.ToneLookupReportsTheEntry := by
  refine ⟨decodeCommand_toneLookup, fun s => ?_⟩
  rw [← byteOperand_eq_setWidth]
  exact ⟨execToneLookup_of_inside s, execToneLookup_of_outside s⟩

/-! ### Other values in the operand registers -/

/-- `s` with the values `a` and `b` in `ARG0` and `ARG1`. -/
def withOperands (a b : Word16) (s : State) : State := { s with arg0 := a, arg1 := b }

/-- From `s`, whatever the operand registers hold, `f` leads to one next state, but for those registers, which it
leaves alone. -/
def IgnoresOperands (f : State → Host.Outcome State Fault Refusal) (s : State) : Prop :=
  ∃ t, ∀ a b, f (withOperands a b s) = .next (withOperands a b t)

/-- The values that the registers hold are among those compared. -/
theorem IgnoresOperands.exists_next {f : State → Host.Outcome State Fault Refusal} {s : State}
    (hf : IgnoresOperands f s) (a b : Word16) :
    ∃ t, f s = .next t ∧ f (withOperands a b s) = .next (withOperands a b t) := by
  obtain ⟨t, ht⟩ := hf
  exact ⟨withOperands s.arg0 s.arg1 t, ht s.arg0 s.arg1, ht a b⟩

/-- A step from `s` that is, for all operand registers, the step `f` from `u` ignores them as `f` does. -/
theorem IgnoresOperands.of_eq {f g : State → Host.Outcome State Fault Refusal} {s u : State}
    (hf : IgnoresOperands f u) (hg : ∀ a b, g (withOperands a b s) = f (withOperands a b u)) : IgnoresOperands g s := by
  obtain ⟨t, ht⟩ := hf
  exact ⟨t, fun a b => (hg a b).trans (ht a b)⟩

/-! ### The actions -/

/-- The action decoder gives actions only (30_encoding.md R66). -/
theorem format_of_decodeAction {w : ActionWord} {i : Instr} (h : decodeAction w = .ok i) : i.format = .act := by
  unfold decodeAction at h
  split_ifs at h <;> cases h <;> rfl

theorem ignoresOperands_execNote (index : Byte) (s : State) : IgnoresOperands (execNote index) s := by
  by_cases h : index.toNat < 128
  · exact ⟨toneProgram (s.mem.freqTable[index.toNat]'h) s, fun _ _ => execNote_of_inside index _ h⟩
  · exact ⟨s, fun _ _ => execNote_of_outside index _ (Nat.not_lt.mp h)⟩

/-- An action carries its operand in its word (30_encoding.md R61 to R64). -/
theorem ignoresOperands_exec {i : Instr} (h : i.format = .act) (s : State) : IgnoresOperands (exec i) s := by
  cases i with
  | endAct => exact ⟨finishRun (toneMute s), fun _ _ => rfl⟩
  | wait d => exact ⟨emit [.delayMs (zext32 d)] s, fun _ _ => rfl⟩
  | note index => exact ignoresOperands_execNote index s
  | led p => exact ⟨srUpdate p s, fun _ _ => rfl⟩
  | _ => cases h

/-! ### The steps of a run -/

/-- `RunStep` fetches by `CUR_SEQ` and `POS`: it overflows, runs an action or faults at the word, the same for all
operand registers. -/
theorem ignoresOperands_runStep (s : State) : IgnoresOperands runStep s := by
  by_cases hpos : s.pos = topPos
  · exact ⟨raiseFault .indexOverflow (some (fetchSite s)) s, fun _ _ => if_pos hpos⟩
  · cases hdecode : decodeAction (fetchWord s) with
    | ok i =>
      exact (ignoresOperands_exec (format_of_decodeAction hdecode) (advancePos s)).of_eq fun _ _ =>
        runStep_of_action _ i hpos hdecode
    | error x =>
      exact ⟨raiseFault .illegalAction (some (fetchSite s)) (advancePos s), fun _ _ =>
        runStep_of_illegal _ x hpos hdecode⟩

/-- In `RUN` the block's step is a `RunStep`. -/
theorem blockStep_of_run {s : State} (hphase : s.phase = .run) : blockStep s = runStep s := by
  simp only [blockStep, hphase]

theorem ignoresOperands_blockStep {s : State} (hphase : s.phase = .run) : IgnoresOperands blockStep s :=
  (ignoresOperands_runStep s).of_eq fun _ _ => blockStep_of_run hphase

/-- In a run a turn that the host leaves to the block is a step of the block, or, where the block is not busy, only
ends the host's awaiting. -/
theorem ignoresOperands_step {s : State} (hphase : s.phase = .run)
    (hscript : s.env.script = [] ∨ s.env.script.head? = some .grant ∨ s.env.script.head? = some .await) :
    IgnoresOperands step s := by
  obtain hnil | hgrant | hawait := hscript
  · exact (ignoresOperands_blockStep hphase).of_eq fun _ _ => turn_nil _ hnil
  · obtain ⟨rest, hrest⟩ := List.head?_eq_some_iff.mp hgrant
    exact (ignoresOperands_blockStep (s := withScript rest s) hphase).of_eq fun _ _ =>
      turn_cons _ .grant rest hrest (by decide)
  · obtain ⟨rest, hrest⟩ := List.head?_eq_some_iff.mp hawait
    cases hbusy : s.status.busy with
    | true =>
      exact (ignoresOperands_blockStep hphase).of_eq fun _ _ => turn_await_busy _ rest hrest hbusy
    | false => exact ⟨withScript rest s, fun _ _ => turn_await_ready _ rest hrest hbusy⟩

/-- Settles O40: the block's steps in a run, down to the four actions, neither read nor write the operand
registers. -/
theorem runIgnoresTheOperandRegisters : Obligations.RunIgnoresTheOperandRegisters :=
  fun _ a b hphase hscript => (ignoresOperands_step hphase hscript).exists_next a b

end Sys2Proof.Machine

/-! SUPPORT. Faults (60_exceptions.md): every step ends out of `FAULT` or by raising one fault, and what an operation
writes before it raises one is neither reported nor seen outside the block (R139). -/

namespace Sys2Proof.Machine

/-! ### What is reported and seen -/

/-- `t` is in the phase of `s`, reports the result of `s`, and has called no collaborator since. -/
structure SameOutputs (s t : State) : Prop where
  phase : t.phase = s.phase
  result : t.result = s.result
  valid : t.status.valid = s.status.valid
  tr : t.tr = s.tr
  dev : t.dev = s.dev

theorem SameOutputs.refl (s : State) : SameOutputs s s := ⟨rfl, rfl, rfl, rfl, rfl⟩

theorem SameOutputs.trans {s t u : State} (hst : SameOutputs s t) (htu : SameOutputs t u) : SameOutputs s u where
  phase := htu.phase.trans hst.phase
  result := htu.result.trans hst.result
  valid := htu.valid.trans hst.valid
  tr := htu.tr.trans hst.tr
  dev := htu.dev.trans hst.dev

theorem sameOutputs_accept (s : State) : SameOutputs s (accept s) := ⟨rfl, rfl, rfl, rfl, rfl⟩

theorem sameOutputs_advancePos (s : State) : SameOutputs s (advancePos s) := ⟨rfl, rfl, rfl, rfl, rfl⟩

theorem sameOutputs_withScript (script : List HostInput) (s : State) : SameOutputs s (withScript script s) :=
  ⟨rfl, rfl, rfl, rfl, rfl⟩

theorem sameOutputs_prng (x : Word16) (s : State) : SameOutputs s { s with prng := x } := ⟨rfl, rfl, rfl, rfl, rfl⟩

/-! ### How a step ends -/

/-- The two ways a step from `s` ends: without entering `FAULT`, or by raising a fault in a state that reports and
shows what `s` does. -/
inductive FaultsQuietly (s : State) : Host.Outcome State Fault Refusal → Prop
  | unfaulted {t : State} (h : t.phase = .fault → s.phase = .fault) : FaultsQuietly s (.next t)
  | raised {c : Cause} {x : Option FetchSite} {u : State} (hc : c ≠ .noFault) (hu : SameOutputs s u) :
      FaultsQuietly s (.next (raiseFault c x u))

/-- A step that stays in the phase. -/
theorem FaultsQuietly.of_phase_eq {s t : State} (h : t.phase = s.phase) : FaultsQuietly s (.next t) :=
  .unfaulted h.symm.trans

/-- A step that goes to `IDLE` or `RUN`. -/
theorem FaultsQuietly.of_other_phase {s t : State} {p : Phase} (h : t.phase = p) (hp : p ≠ .fault) :
    FaultsQuietly s (.next t) :=
  .unfaulted fun hfault => absurd (h.symm.trans hfault) hp

/-- A fault raised before anything is written. -/
theorem FaultsQuietly.of_raise {s : State} {c : Cause} {x : Option FetchSite} (hc : c ≠ .noFault) :
    FaultsQuietly s (.next (raiseFault c x s)) :=
  .raised hc (.refl s)

/-- An operation on `s` that is neither reported nor seen, then a step from what it gives. -/
theorem SameOutputs.faultsQuietly {s t : State} {o : Host.Outcome State Fault Refusal} (hst : SameOutputs s t)
    (ho : FaultsQuietly t o) : FaultsQuietly s o := by
  cases ho with
  | unfaulted h => exact .unfaulted fun hfault => hst.phase.symm.trans (h hfault)
  | raised hc hu => exact .raised hc (hst.trans hu)

/-- From a state out of `FAULT`, a step that ends there has raised a fault. -/
theorem FaultsQuietly.exists_raiseFault {s t : State} (h : FaultsQuietly s (.next t)) (hs : s.phase ≠ .fault)
    (ht : t.phase = .fault) : ∃ c x u, c ≠ .noFault ∧ SameOutputs s u ∧ t = raiseFault c x u := by
  cases h with
  | unfaulted h => exact absurd (h ht) hs
  | raised hc hu => exact ⟨_, _, _, hc, hu, rfl⟩

/-! ### The phase through the draws and the host's reads -/

@[simp] theorem adcSample_phase (s : State) : (adcSample s).2.phase = s.phase := by
  obtain ⟨v, e, he, -⟩ := adcSample_spec s
  rw [he, emit_phase]

@[simp] theorem bootReadAll_phase (count : Nat) (s : State) : (bootReadAll count s).2.phase = s.phase := rfl

@[simp] theorem foldNoise_phase (seed : Word16) (s : State) : (foldNoise seed s).2.phase = s.phase := by
  simp only [foldNoise, adcSample_phase]

/-- A host read has no side effect on the block (45_host_commands.md R135). -/
@[simp] theorem hostRead_phase (slot : Slot) (s : State) : (hostRead slot s).phase = s.phase := by
  cases slot with
  | prng => cases hs : s.seeded <;> simp [hostRead, readSlot, anyRead, hs]
  | _ => rfl

/-! ### The instructions -/

theorem faultsQuietly_execNote (index : Byte) (s : State) : FaultsQuietly s (execNote index s) := by
  obtain h | h := Nat.lt_or_ge index.toNat 128
  · rw [execNote_of_inside index s h]
    exact .of_phase_eq rfl
  · rw [execNote_of_outside index s h]
    exact .of_phase_eq rfl

theorem faultsQuietly_execRun (s : State) : FaultsQuietly s (execRun s) := by
  obtain h | h := Nat.lt_or_ge (seqOperand s).toNat (numSeq s.mem)
  · rw [execRun_of_present s h]
    exact .of_other_phase (runStart_phase ..) (by decide)
  · rw [execRun_of_absent s h]
    exact .of_raise (by decide)

theorem faultsQuietly_execToneLookup (s : State) : FaultsQuietly s (execToneLookup s) := by
  obtain h | h := Nat.lt_or_ge (byteOperand s).toNat 128
  · rw [execToneLookup_of_inside s h]
    exact .of_phase_eq rfl
  · rw [execToneLookup_of_outside s h]
    exact .of_phase_eq rfl

/-- `ZERO_TOTAL` is raised after the PRNG write, `PRNG_UNINIT` before it (43_random_walk.md R109); with a positive
total some edge is taken. -/
theorem faultsQuietly_walkFrom (n : Node) (s : State) : FaultsQuietly s (walkFrom n s) := by
  cases hseeded : s.seeded with
  | false =>
    rw [walkFrom_of_unseeded n hseeded]
    exact .of_raise (by decide)
  | true =>
    obtain htotal | htotal := Nat.eq_zero_or_pos (totalWeight n.edges)
    · rw [walkFrom_of_zero_total hseeded htotal]
      exact .raised (by decide) (sameOutputs_prng _ s)
    · obtain ⟨lower, e, upper, hedges, hlower, hupper⟩ :=
        exists_enclosing_edge (Nat.mod_lt (tripleMix s.prng).toNat htotal)
      rw [walkFrom_of_enclosing hseeded hedges hlower hupper]
      exact .of_phase_eq rfl

theorem faultsQuietly_execNextId (s : State) : FaultsQuietly s (execNextId s) := by
  unfold execNextId
  split
  · exact .of_phase_eq rfl
  · exact faultsQuietly_walkFrom _ s

theorem faultsQuietly_execPrngInit (s : State) : FaultsQuietly s (execPrngInit s) := by
  unfold execPrngInit
  split
  · exact .of_raise (by decide)
  · exact .of_phase_eq ((foldNoise_phase _ _).trans (bootReadAll_phase seedWords s))

theorem faultsQuietly_execPrngAdvance (s : State) : FaultsQuietly s (execPrngAdvance s) := by
  cases hseeded : s.seeded with
  | false =>
    rw [execPrngAdvance_of_unseeded hseeded]
    exact .of_raise (by decide)
  | true =>
    rw [execPrngAdvance_of_seeded hseeded]
    exact .of_phase_eq rfl

/-- The check comes before the sample (44_prng.md R121), so a fault leaves no `Adc` event. -/
theorem faultsQuietly_execPrngUpdate (s : State) : FaultsQuietly s (execPrngUpdate s) := by
  unfold execPrngUpdate
  split
  · exact .of_phase_eq (adcSample_phase s)
  · exact .of_raise (by decide)

/-- Every instruction that raises a fault raises it before its first event. -/
theorem faultsQuietly_exec (i : Instr) (s : State) : FaultsQuietly s (exec i s) := by
  cases i with
  | endAct => exact .of_other_phase (finishRun_phase _) (by decide)
  | wait d => exact .of_phase_eq rfl
  | note index => exact faultsQuietly_execNote index s
  | led p => exact .of_phase_eq rfl
  | run => exact faultsQuietly_execRun s
  | srUpdate => exact .of_phase_eq rfl
  | toneLookup => exact faultsQuietly_execToneLookup s
  | nextId => exact faultsQuietly_execNextId s
  | prngInit => exact faultsQuietly_execPrngInit s
  | prngAdvance => exact faultsQuietly_execPrngAdvance s
  | prngUpdate => exact faultsQuietly_execPrngUpdate s

/-! ### The turns -/

/-- The fetch's own faults come before the action: `INDEX_OVERFLOW` before the advance, `ILLEGAL_ACTION` after it
(60_exceptions.md R142). -/
theorem faultsQuietly_runStep (s : State) : FaultsQuietly s (runStep s) := by
  by_cases hpos : s.pos = topPos
  · rw [runStep, if_pos hpos]
    exact .of_raise (by decide)
  · cases hdecode : decodeAction (fetchWord s) with
    | ok i =>
      rw [runStep_of_action s i hpos hdecode]
      exact (sameOutputs_advancePos s).faultsQuietly (faultsQuietly_exec i _)
    | error x =>
      rw [runStep_of_illegal s x hpos hdecode]
      exact .raised (by decide) (sameOutputs_advancePos s)

theorem faultsQuietly_blockStep (s : State) : FaultsQuietly s (blockStep s) := by
  unfold blockStep
  split
  · exact faultsQuietly_runStep s
  · exact .of_phase_eq rfl
  · exact .of_phase_eq rfl

/-- The faults of a write to `CMD` in their order (60_exceptions.md R142): its own two, then the command's, which runs
accepted. -/
theorem faultsQuietly_hostWriteCmd (c : Word16) (s : State) : FaultsQuietly s (hostWriteCmd c s) := by
  unfold hostWriteCmd
  split
  · exact .of_phase_eq rfl
  · split
    · exact .of_raise (by decide)
    · split
      · exact (sameOutputs_accept s).faultsQuietly (faultsQuietly_exec _ _)
      · exact .of_raise (by decide)

theorem faultsQuietly_hostWrite (slot : Slot) (v : Word16) (s : State) : FaultsQuietly s (hostWrite slot v s) := by
  cases slot with
  | cmd => exact faultsQuietly_hostWriteCmd v s
  | _ => exact .of_phase_eq rfl

theorem faultsQuietly_serve (i : HostInput) (s : State) : FaultsQuietly s (serve i s) := by
  cases i with
  | write slot v => exact faultsQuietly_hostWrite slot v s
  | read slot => exact .of_phase_eq (hostRead_phase slot s)
  | grant => exact faultsQuietly_blockStep s
  | await => exact .of_phase_eq rfl
  | driveLow l => exact .of_phase_eq rfl
  | powerCycle => exact .of_other_phase (p := .idle) (powerCycle_phase _) (by decide)

theorem faultsQuietly_step (s : State) : FaultsQuietly s (step s) := by
  obtain hblock | ⟨i, rest, -, -, hserve⟩ := step_eq_blockStep_or_serve s
  · rw [hblock]
    exact faultsQuietly_blockStep s
  · rw [hserve]
    exact (sameOutputs_withScript rest s).faultsQuietly (faultsQuietly_serve i _)

/-- Settles O10: `raiseFault` by its fields; a step into `FAULT` is a raise in a state with the outputs of the state
before, and the raise keeps those outputs. -/
theorem raisingAFault : Obligations.RaisingAFault := by
  refine ⟨fun _ _ _ => rfl, fun s t hs hstep ht => ?_⟩
  have hquiet : FaultsQuietly s (.next t) := hstep ▸ faultsQuietly_step s
  obtain ⟨c, x, u, hc, hu, rfl⟩ := hquiet.exists_raiseFault hs ht
  exact ⟨hu.result, hu.valid, rfl, rfl, hc, hu.tr, hu.dev⟩

end Sys2Proof.Machine

/-! SUPPORT. The encoder and the decoders as inverses (30_encoding.md R61 to R70), and the rows of the opcode table as
conditions on the fields of a word (R71). -/

namespace Sys2Proof

/-! ### A word from its fields -/

theorem mkAction_fields (w : ActionWord) : mkAction (opField w) (payloadField w) = w :=
  BitVec.extractLsb'_append_extractLsb'

theorem highByte_append_lowByte (p : Word16) : highByte p ++ lowByte p = p := BitVec.extractLsb'_append_extractLsb'

/-- A payload whose high byte is 0 is its low byte, zero-extended by the append (30_encoding.md R63, R64). -/
theorem zero_append_lowByte {p : Word16} (h : highByte p = 0x00) : (0x00 : Byte) ++ lowByte p = p := by
  rw [← h, highByte_append_lowByte]

/-! ### Decoding an encoded instruction, and encoding a decoded word -/

theorem decode_encode (i : Instr) : decode (encode i) = .ok i := by
  cases i with
  | endAct => exact decodeAction_endWord
  | wait d => exact decodeAction_waitWord d
  | note index => exact decodeAction_noteWord index
  | led p => exact decodeAction_ledWord p
  | _ => rfl

/-- Every tag's arm of the decoder gives an instruction whose word has this tag and this payload. -/
theorem encode_of_decodeAction {w : ActionWord} {i : Instr} (h : decodeAction w = .ok i) :
    encode i = .action w := by
  conv_rhs => rw [← mkAction_fields w]
  obtain hop | hop | hop | hop | hop := op_cases (opField w)
  · rw [decodeAction_of_op_zero hop] at h
    split_ifs at h with hp
    cases h
    rw [hop, hp, encode]
  · rw [decodeAction_of_op_one hop] at h
    cases h
    rw [hop, encode]
  · rw [decodeAction_of_op_two hop] at h
    split_ifs at h with hp
    cases h
    rw [hop, encode, zero_append_lowByte hp]
  · rw [decodeAction_of_op_three hop] at h
    split_ifs at h with hp
    cases h
    rw [hop, encode, zero_append_lowByte hp]
  · rw [decodeAction_of_four_le_op hop] at h
    cases h

/-- Every arm of the command decoder tests for the code that the encoder gives. -/
theorem encode_of_decodeCommand {c : Word16} {i : Instr} (h : decodeCommand c = .ok i) : encode i = .command c := by
  unfold decodeCommand at h
  split_ifs at h <;> cases h <;> subst c <;> rfl

theorem encode_of_decode {e : Encoded} {i : Instr} (h : decode e = .ok i) : encode i = e := by
  cases e with
  | action w => exact encode_of_decodeAction h
  | command c => exact encode_of_decodeCommand h

/-- Settles O1: the decoder reads every instruction's word back, and every word it accepts is put together again from
the fields it has looked at. -/
theorem decodeIsInverseOfEncode : Obligations.DecodeIsInverseOfEncode := fun i _ =>
  ⟨encode_of_decode, fun h => h ▸ decode_encode i⟩

/-! ### The command codes -/

/-- The command decoder refuses exactly the codes outside `0x0001..0x0007` (30_encoding.md R70). -/
theorem decodeCommand_error_iff (c : Word16) :
    (∃ x, decodeCommand c = .error x) ↔ c.toNat = 0 ∨ 8 ≤ c.toNat := by
  unfold decodeCommand
  split_ifs with h1 h2 h3 h4 h5 h6 h7
  case neg =>
    simp only [Except.error.injEq, exists_eq', true_iff]
    bv_omega
  all_goals
    subst c
    simp

/-! ### The rows of the opcode table -/

/-- A mask of `m` ones above `k` zeros keeps the bits from `k` on. -/
theorem and_ones_above (x m k : Nat) : x &&& (2 ^ m - 1) * 2 ^ k = x / 2 ^ k % 2 ^ m * 2 ^ k := by
  apply Nat.eq_of_testBit_eq
  intro i
  by_cases hi : k ≤ i
  · simp [Nat.testBit_mul_two_pow, hi, Nat.testBit_div_two_pow, Bool.and_comm]
  · simp [Nat.testBit_mul_two_pow, hi]

theorem toNat_opField (w : ActionWord) : (opField w).toNat = w.toNat / 2 ^ 16 := by
  rw [opField, BitVec.extractLsb'_toNat, Nat.shiftRight_eq_div_pow]
  omega

theorem toNat_payloadField (w : ActionWord) : (payloadField w).toNat = w.toNat % 2 ^ 16 := by
  rw [payloadField, BitVec.extractLsb'_toNat, Nat.shiftRight_zero]

theorem toNat_highByte (p : Word16) : (highByte p).toNat = p.toNat / 2 ^ 8 := by
  rw [highByte, BitVec.extractLsb'_toNat, Nat.shiftRight_eq_div_pow]
  omega

/-- A row of full mask holds one word (30_encoding.md R71). -/
theorem and_mask_full_eq_zero_iff (w : ActionWord) :
    w.toNat &&& 0xFFFFFF = 0 ↔ opField w = 0x00 ∧ payloadField w = 0x0000 := by
  have hmask : w.toNat &&& 0xFFFFFF = w.toNat := Nat.and_two_pow_sub_one_of_lt_two_pow w.isLt
  rw [hmask, BitVec.toNat_eq, BitVec.toNat_eq, toNat_opField, toNat_payloadField]
  bv_omega

/-- The row of `Wait` asks for its tag only. -/
theorem and_mask_op_eq_iff (w : ActionWord) : w.toNat &&& 0xFF0000 = 0x010000 ↔ opField w = 0x01 := by
  have hmask : w.toNat &&& 0xFF0000 = w.toNat / 2 ^ 16 % 2 ^ 8 * 2 ^ 16 := and_ones_above w.toNat 8 16
  rw [hmask, BitVec.toNat_eq, toNat_opField]
  bv_omega

/-- The rows of `Note` and `Led` ask for a tag and a high byte 0. -/
theorem and_mask_high_eq_iff (w : ActionWord) (op : Byte) :
    w.toNat &&& 0xFFFF00 = op.toNat * 2 ^ 16 ↔ opField w = op ∧ highByte (payloadField w) = 0x00 := by
  have hmask : w.toNat &&& 0xFFFF00 = w.toNat / 2 ^ 8 % 2 ^ 16 * 2 ^ 8 := and_ones_above w.toNat 16 8
  rw [hmask, BitVec.toNat_eq, BitVec.toNat_eq, toNat_opField, toNat_highByte, toNat_payloadField]
  bv_omega

/-- A row of the command format holds one code. -/
theorem and_mask_code (c : Word16) : c.toNat &&& 0xFFFF = c.toNat :=
  Nat.and_two_pow_sub_one_of_lt_two_pow c.isLt

/-! ### The table against the decoder -/

/-- The mnemonics of the rows of `t` that hold an encoded word. -/
def rowsOf (t : List OpcodeRow) (e : Encoded) : List String := (t.filter fun r => r.hits e).map OpcodeRow.mnemonic

@[simp] theorem rowsOf_nil (e : Encoded) : rowsOf [] e = [] := rfl

theorem rowsOf_cons (r : OpcodeRow) (t : List OpcodeRow) (e : Encoded) :
    rowsOf (r :: t) e = (if r.hits e then [r.mnemonic] else []) ++ rowsOf t e := by
  simp only [rowsOf, List.filter_cons]
  split <;> rfl

theorem hits_action (n : String) (v m : Nat) (w : ActionWord) :
    (⟨n, .act, v, m⟩ : OpcodeRow).hits (.action w) = decide (w.toNat &&& m = v) := by
  simp [OpcodeRow.hits, Encoded.format, Encoded.toNat, Bool.beq_eq_decide_eq]

theorem hits_command (n : String) (v : Nat) (c : Word16) :
    (⟨n, .cmd, v, 0xFFFF⟩ : OpcodeRow).hits (.command c) = decide (c.toNat = v) := by
  simp [OpcodeRow.hits, Encoded.format, Encoded.toNat, and_mask_code, Bool.beq_eq_decide_eq]

theorem hits_command_of_action_row (n : String) (v m : Nat) (c : Word16) :
    (⟨n, .act, v, m⟩ : OpcodeRow).hits (.command c) = false := rfl

theorem hits_action_of_command_row (n : String) (v m : Nat) (w : ActionWord) :
    (⟨n, .cmd, v, m⟩ : OpcodeRow).hits (.action w) = false := rfl

/-- The rows that hold an action word, by its tag and its payload. -/
theorem rowsOf_action (w : ActionWord) : rowsOf opcodeTable (.action w) =
    (if opField w = 0x00 ∧ payloadField w = 0x0000 then ["End"] else []) ++
    (if opField w = 0x01 then ["Wait"] else []) ++
    (if opField w = 0x02 ∧ highByte (payloadField w) = 0x00 then ["Note"] else []) ++
    (if opField w = 0x03 ∧ highByte (payloadField w) = 0x00 then ["Led"] else []) := by
  have hnote : w.toNat &&& 0xFFFF00 = 0x020000 ↔ _ := and_mask_high_eq_iff w 0x02
  have hled : w.toNat &&& 0xFFFF00 = 0x030000 ↔ _ := and_mask_high_eq_iff w 0x03
  simp [opcodeTable, rowsOf_cons, hits_action, hits_action_of_command_row, and_mask_full_eq_zero_iff,
    and_mask_op_eq_iff, hnote, hled]

/-- A code outside `0x0001..0x0007` is in no row. -/
theorem rowsOf_command_of_illegal {c : Word16} (h : c.toNat = 0 ∨ 8 ≤ c.toNat) :
    rowsOf opcodeTable (.command c) = [] := by
  have hne (k : Nat) (hk : 0 < k) (hk' : k < 8) : c.toNat ≠ k := by omega
  simp [opcodeTable, rowsOf_cons, hits_command, hits_command_of_action_row, hne]

/-- The rows that hold a command code: the row of its command. -/
theorem rowsOf_command (c : Word16) : rowsOf opcodeTable (.command c) =
    match decodeCommand c with
    | .ok i => [i.mnemonic]
    | .error _ => [] := by
  cases h : decodeCommand c with
  | error x => exact rowsOf_command_of_illegal ((decodeCommand_error_iff c).mp ⟨x, h⟩)
  | ok i =>
    rw [← encode_of_decodeCommand h]
    cases i with
    | endAct | wait | note | led => cases encode_of_decodeCommand h
    | _ => rfl

/-- Settles O5: an action word by its tag, a command by its code: the rows that hold it are those of what it decodes
to. -/
theorem opcodeTableAgreesWithDecoder : Obligations.OpcodeTableAgreesWithDecoder := by
  intro e
  change rowsOf opcodeTable e = _
  cases e with
  | command c => exact rowsOf_command c
  | action w =>
    rw [rowsOf_action, decode]
    obtain hop | hop | hop | hop | hop := op_cases (opField w)
    · rw [decodeAction_of_op_zero hop]
      by_cases hp : payloadField w = 0#16 <;> simp [hop, hp, Instr.mnemonic]
    · simp [decodeAction_of_op_one hop, hop, Instr.mnemonic]
    · rw [decodeAction_of_op_two hop]
      by_cases hp : highByte (payloadField w) = 0#8 <;> simp [hop, hp, Instr.mnemonic]
    · rw [decodeAction_of_op_three hop]
      by_cases hp : highByte (payloadField w) = 0#8 <;> simp [hop, hp, Instr.mnemonic]
    · rw [decodeAction_of_four_le_op hop]
      have tag_ne (k : Byte) (hk : k.toNat < 4) : opField w ≠ k := by
        rintro rfl
        omega
      simp [tag_ne]

/-! ### Authored sequences -/

theorem encodeAction?_eq_some_iff (i : Instr) (w : ActionWord) :
    encodeAction? i = some w ↔ encode i = .action w := by
  unfold encodeAction?
  split <;> simp [*]

/-- The words of an authored sequence are those of its actions, one by one (30_encoding.md R69). -/
theorem forall₂_of_encodeSeq {is : List Instr} {ws : List ActionWord} (h : encodeSeq is = some ws) :
    List.Forall₂ (fun i w => encode i = .action w) is ws := by
  induction is generalizing ws with
  | nil =>
    cases h
    exact .nil
  | cons i is ih =>
    simp only [encodeSeq, List.mapM_cons, Option.pure_def, Option.bind_eq_bind, Option.bind_eq_some_iff,
      Option.some.injEq] at h
    obtain ⟨w, hw, ws', hws, rfl⟩ := h
    exact .cons ((encodeAction?_eq_some_iff i w).mp hw) (ih hws)

end Sys2Proof

namespace Sys2Proof.Machine

/-- A read of a stored sequence, inside it or past its end (20_memory.md R44). -/
theorem seqRead_of_stored {st : SeqStore} {q : Byte} {ws : List ActionWord} (h : st[q.toNat]? = some ws)
    (p : Word16) : seqRead st q p = ws.getD p.toNat 0x000000 := by
  rw [seqRead, List.getD_eq_getElem?_getD (l := st), h, Option.getD_some]

/-- Settles O6: the word at a position is that of the action there, which decodes back, and past the end it is the
`End` word. -/
theorem authoredSequenceReadsBack : Obligations.AuthoredSequenceReadsBack := by
  intro is m q ws hws hstored
  have hwords := forall₂_of_encodeSeq hws
  refine ⟨fun p i hi => ?_, fun p hp => ?_⟩
  · obtain ⟨hlt, hget⟩ := List.getElem?_eq_some_iff.mp hi
    have hlt' : p.toNat < ws.length := hwords.length_eq ▸ hlt
    have hword : encode i = .action ws[p.toNat] := hget ▸ hwords.get hlt hlt'
    rw [seqRead_of_stored hstored, List.getD_eq_getElem _ _ hlt', ← hword]
    exact decode_encode i
  · rw [seqRead_of_stored hstored, List.getD_eq_default _ _ (hwords.length_eq ▸ hp)]
    exact decodeAction_endWord

end Sys2Proof.Machine

namespace Sys2Proof

/-- Settles O7: each word by the decoder's equations. -/
theorem sampleWordsDecode : Obligations.SampleWordsDecode := ⟨rfl, rfl, rfl, rfl, rfl, rfl, rfl⟩

end Sys2Proof

/-! SUPPORT. What one update of the shift register does outside the block (40_shift_register.md R77 to R81,
70_reset_and_hazards.md R159): the reaction to one bit's train and to the latch pulse, folded over the eight bits. -/

namespace Sys2Proof.Machine

/-! ### The reaction to one bit and to the latch pulse -/

/-- `SHIFT` after one rising `CLK` edge with the bit `b` on `DATA` (40_shift_register.md R79). -/
def Devices.clocked (d : Devices) (b : Bool) : Octet :=
  match d.clk with
  | .low => d.shift.shiftIn (Level.ofBool b)
  | .unknown => Octet.unknown
  | .high => d.shift

/-- `OUT` after one rising `LATCH` edge (40_shift_register.md R79). -/
def Devices.latched (d : Devices) : Octet :=
  match d.latch with
  | .low => d.shift
  | .unknown => Octet.unknown
  | .high => d.out

theorem foldl_react_bitTrain (w : Word32) (b : Bool) (d : Devices) :
    (bitTrain w b).foldl Devices.react d =
      { d with data := Level.ofBool b, clk := .low, shift := d.clocked b } := by
  obtain ⟨data, clk, latch, shift, out, freq, duty, en⟩ := d
  cases clk <;> rfl

theorem foldl_react_latchPulse (w : Word32) (d : Devices) :
    (pulse w .latch).foldl Devices.react d = { d with latch := .low, out := d.latched } := by
  obtain ⟨data, clk, latch, shift, out, freq, duty, en⟩ := d
  cases latch <;> rfl

/-! ### The reaction to the whole train -/

/-- The eight bit trains of an update, before its latch pulse. -/
def bitTrains (w : Word32) (p : Byte) : List Event := bitOrder.flatMap fun i => bitTrain w (p.getLsbD i)

/-- `SHIFT` after the eight bits: only the first edge can come from a level that is not 0. -/
def Devices.shifted (d : Devices) (p : Byte) : Octet :=
  [6, 5, 4, 3, 2, 1, 0].foldl (fun o i => o.shiftIn (Level.ofBool (p.getLsbD i))) (d.clocked (p.getLsbD 7))

theorem foldl_react_bitTrains (w : Word32) (p : Byte) (d : Devices) :
    (bitTrains w p).foldl Devices.react d =
      { d with data := Level.ofBool (p.getLsbD 0), clk := .low, shift := d.shifted p } := by
  simp only [bitTrains, bitOrder, List.flatMap_cons, List.flatMap_nil, List.foldl_append, foldl_react_bitTrain]
  rfl

/-- What the devices have become after the 53 events. -/
theorem foldl_react_srEvents (w : Word32) (p : Byte) (d : Devices) :
    (srEvents w p).foldl Devices.react d =
      { d with
        data := Level.ofBool (p.getLsbD 0)
        clk := .low
        latch := .low
        shift := d.shifted p
        out := Devices.latched { d with shift := d.shifted p } } := by
  have hsplit : srEvents w p = bitTrains w p ++ pulse w .latch := srEvents_eq_flatMap w p
  rw [hsplit, List.foldl_append, foldl_react_bitTrains, foldl_react_latchPulse]
  rfl

/-- From a `CLK` that is not 1 the eight edges shift in the pattern, but for bit 7 where the first edge came from
`unknown` (40_shift_register.md R80). -/
theorem shifted_eq_shiftAfter {d : Devices} (p : Byte) (h : d.clk ≠ .high) : d.shifted p = shiftAfter p d.clk := by
  obtain ⟨data, clk, latch, shift, out, freq, duty, en⟩ := d
  cases clk with
  | high => exact absurd rfl h
  | low => rfl
  | unknown => rfl

/-- From a `LATCH` that is not 1 `OUT` takes `SHIFT`, or nothing is known where the edge came from `unknown`. -/
theorem latched_of_ne_high {d : Devices} (h : d.latch ≠ .high) :
    d.latched = if d.latch = .unknown then Octet.unknown else d.shift := by
  unfold Devices.latched
  cases hl : d.latch with
  | high => exact absurd hl h
  | low => rfl
  | unknown => rfl

/-! ### The driver -/

theorem settleRegister_of_le {c : Config} (d : Devices) (h : c.srMinUs ≤ c.srTotalUs / 27) :
    settleRegister c d = d :=
  if_neg (Nat.not_lt.mpr h)

theorem settleRegister_of_lt {c : Config} (d : Devices) (h : c.srTotalUs / 27 < c.srMinUs) :
    settleRegister c d = d.spoilRegister :=
  if_pos h

/-- Settling leaves everything but the register alone, whichever of its two arms it takes. -/
theorem settleRegister_frame (c : Config) (d : Devices) :
    ∃ shift out, settleRegister c d = { d with shift := shift, out := out } := by
  obtain h | h := Nat.lt_or_ge (c.srTotalUs / 27) c.srMinUs
  · exact ⟨_, _, settleRegister_of_lt d h⟩
  · exact ⟨_, _, settleRegister_of_le d h⟩

theorem driverLeaves_srUpdate (p : Byte) (s : State) : DriverLeaves p s.cfg s.dev (srUpdate p s).dev := by
  rw [srUpdate_dev, foldl_react_srEvents]
  obtain h | h := Nat.lt_or_ge (s.cfg.srTotalUs / 27) s.cfg.srMinUs
  · rw [settleRegister_of_lt _ h]
    exact ⟨rfl, rfl, rfl, rfl, rfl, rfl, fun hle => absurd h (Nat.not_lt.mpr hle),
      fun hle => absurd h (Nat.not_lt.mpr hle), fun _ => ⟨rfl, rfl⟩⟩
  · rw [settleRegister_of_le _ h]
    refine ⟨rfl, rfl, rfl, rfl, rfl, rfl, fun _ => shifted_eq_shiftAfter p, fun _ hclk hlatch => ?_,
      fun hlt => absurd hlt (Nat.not_lt.mpr h)⟩
    rw [← shifted_eq_shiftAfter p hclk]
    exact latched_of_ne_high hlatch

/-- One update changes the trace, by the train of R75, and the devices. -/
theorem srUpdate_eq (p : Byte) (s : State) : srUpdate p s = { s with
    tr := s.tr ++ srTrain (BitVec.ofNat 32 (s.cfg.srTotalUs / 27)) p
    dev := (srUpdate p s).dev } := by
  rw [← srEvents_eq_srTrain]
  rfl

/-- Settles O14: `Led` is one `SrUpdate` of its operand. -/
theorem ledSendsThePattern : Obligations.LedSendsThePattern := by
  intro p s
  refine ⟨(srUpdate p s).dev, ?_, driverLeaves_srUpdate p s, congrArg Host.Outcome.next (srUpdate_eq p s)⟩
  rw [append_bytes_eq_mkAction]
  exact decodeAction_ledWord p

/-- Settles O16: `SR_UPDATE` is one `SrUpdate` of `ARG0[7:0]`, then a completion without a result. -/
theorem srUpdateSendsThePattern : Obligations.SrUpdateSendsThePattern := by
  refine ⟨rfl, fun s => ?_⟩
  rw [← byteOperand_eq_setWidth]
  refine ⟨(srUpdate (byteOperand s) s).dev, driverLeaves_srUpdate _ s, ?_⟩
  exact congrArg (fun t => Host.Outcome.next (completeVoid t)) (srUpdate_eq (byteOperand s) s)

/-! ### When the outputs change -/

/-- The event raises `LATCH`. -/
def raisesLatch (e : Event) : Bool := decide (e = .line .latch true)

theorem clkHigh_out (d : Devices) : d.clkHigh.out = d.out := by
  unfold Devices.clkHigh
  split <;> rfl

/-- Only a rising `LATCH` edge moves `OUT` (40_shift_register.md R79). -/
theorem react_out {e : Event} (d : Devices) (h : raisesLatch e = false) : (d.react e).out = d.out := by
  cases e with
  | line l b =>
    cases l with
    | data => rfl
    | clk =>
      cases b with
      | false => rfl
      | true => exact clkHigh_out d
    | latch =>
      cases b with
      | false => rfl
      | true => cases h
  | _ => rfl

theorem foldl_react_out {es : List Event} (d : Devices) (h : ∀ e ∈ es, raisesLatch e = false) :
    (es.foldl Devices.react d).out = d.out := by
  induction es generalizing d with
  | nil => rfl
  | cons e es ih =>
    rw [List.foldl_cons, ih _ fun e' he' => h e' (.tail _ he'), react_out d (h e (.head _))]

/-- The 49 events of an update before the latch edge. -/
def beforeLatch (w : Word32) (p : Byte) : List Event := bitTrains w p ++ [.delayUs w]

/-- The three events of an update after the latch edge. -/
def afterLatch (w : Word32) : List Event := [.delayUs w, .line .latch false, .delayUs w]

theorem srEvents_eq_around_latch (w : Word32) (p : Byte) :
    srEvents w p = beforeLatch w p ++ [Event.line .latch true] ++ afterLatch w := by
  rw [beforeLatch, List.append_assoc, List.append_assoc]
  exact srEvents_eq_flatMap w p

theorem length_beforeLatch (w : Word32) (p : Byte) : (beforeLatch w p).length = 49 := rfl

theorem raisesLatch_beforeLatch (w : Word32) (p : Byte) : ∀ e ∈ beforeLatch w p, raisesLatch e = false := by
  simp [beforeLatch, bitTrains, bitOrder, bitTrain, raisesLatch]

theorem raisesLatch_afterLatch (w : Word32) : ∀ e ∈ afterLatch w, raisesLatch e = false := by
  simp [afterLatch, raisesLatch]

theorem take_srEvents_of_le (w : Word32) (p : Byte) {n : Nat} (h : n ≤ 49) :
    (srEvents w p).take n = (beforeLatch w p).take n := by
  rw [srEvents_eq_around_latch, List.append_assoc, List.take_append_of_le_length (length_beforeLatch w p ▸ h)]

theorem take_srEvents_of_ge (w : Word32) (p : Byte) {n : Nat} (h : 50 ≤ n) :
    (srEvents w p).take n = beforeLatch w p ++ [Event.line .latch true] ++ (afterLatch w).take (n - 50) := by
  have hlen : (beforeLatch w p ++ [Event.line .latch true]).length = 50 := rfl
  rw [srEvents_eq_around_latch, List.take_append, hlen, List.take_of_length_le (hlen.trans_le h)]

/-- From the 50th event on `OUT` is what the latch edge has made it. -/
theorem out_of_take_ge (w : Word32) (p : Byte) (d : Devices) {n : Nat} (h : 50 ≤ n) :
    (((srEvents w p).take n).foldl Devices.react d).out =
      ((beforeLatch w p ++ [Event.line .latch true]).foldl Devices.react d).out := by
  rw [take_srEvents_of_ge w p h, List.foldl_append]
  exact foldl_react_out _ fun e he => raisesLatch_afterLatch w e (List.mem_of_mem_take he)

/-- From a low `LATCH` the edge shows the eight bits that have been shifted in. -/
theorem out_at_latch (w : Word32) (p : Byte) {d : Devices} (h : d.latch = .low) :
    ((beforeLatch w p ++ [Event.line .latch true]).foldl Devices.react d).out = d.shifted p := by
  rw [beforeLatch, List.append_assoc, List.foldl_append, foldl_react_bitTrains]
  simp [Devices.react, Devices.latchHigh, h]

/-- Settles O44: before the 50th event and after it no event raises `LATCH`; at it the latch stage takes the shift
stage, which the eight bits have filled. -/
theorem outputsChangeOnlyAtTheLatch : Obligations.OutputsChangeOnlyAtTheLatch := by
  intro w p d n
  refine ⟨rfl, rfl, fun hn => ?_, fun hn => ?_, fun hn hclk hlatch => ?_⟩
  · rw [take_srEvents_of_le w p hn]
    exact foldl_react_out d fun e he => raisesLatch_beforeLatch w p e (List.mem_of_mem_take he)
  · rw [out_of_take_ge w p d hn, out_of_take_ge w p d (Nat.le_refl 50)]
  · rw [out_of_take_ge w p d hn, out_at_latch w p hlatch, shifted_eq_shiftAfter p (by simp [hclk]), hclk]
    rfl

end Sys2Proof.Machine

/-! SUPPORT. The draws of the PRNG Subsystem and the two commands that take them (44_prng.md R117, R121,
45_host_commands.md R132, R134): what each draw gives and what it leaves of the environment. -/

namespace Sys2Proof.Machine

/-! ### One sample -/

/-- From the environment `e` a sample gives `v` and leaves `e'`: the head of the queue, where there is one, is the
sample, and is used up (log 5). -/
structure Sampled (e : Env) (v : Word16) (e' : Env) : Prop where
  fixed : ∀ b, e.adcIn[0]? = some b → v = b
  adcIn : e'.adcIn = e.adcIn.drop 1
  bootIn : e'.bootIn = e.bootIn
  script : e'.script = e.script
  readLog : e'.readLog = e.readLog

/-- The environment alone decides what a sample gives. -/
theorem exists_sampled (e : Env) : ∃ v e', Sampled e v e' ∧
    ∀ s : State, s.env = e → adcSample s = (v, emit [.adc v] { s with env := e' }) := by
  cases h : e.adcIn with
  | nil =>
    refine ⟨Config.freeSample e.fresh, { e with fresh := e.fresh + 1 }, ⟨by simp [h], by simp [h], rfl, rfl, rfl⟩, ?_⟩
    rintro s rfl
    simp only [adcSample, h]
  | cons b rest =>
    refine ⟨b, { e with adcIn := rest }, ⟨by simp [h], by simp [h], rfl, rfl, rfl⟩, ?_⟩
    rintro s rfl
    exact adcSample_fixed s b rest h

/-! ### `PRNG_UPDATE` -/

/-- The state after `PRNG_UPDATE` takes the sample `a` (44_prng.md R121). -/
def updated (x a : Word16) : Word16 := tripleMix (x ^^^ (tripleMix a &&& 0x000F))

/-- An unseeded `PRNG_UPDATE` faults before the sample (45_host_commands.md R134). -/
theorem execPrngUpdate_of_unseeded {s : State} (h : s.seeded = false) :
    execPrngUpdate s = .next (raiseFault .prngUninit none s) :=
  if_neg (Bool.eq_false_iff.mp h)

/-- A seeded `PRNG_UPDATE`, whatever the environment. -/
theorem execPrngUpdate_of_seeded (e : Env) : ∃ a e', Sampled e a e' ∧ ∀ s : State, s.env = e → s.seeded = true →
    execPrngUpdate s = .next (reportPrng { emit [.adc a] s with prng := updated s.prng a, env := e' }) := by
  obtain ⟨a, e', he, hsample⟩ := exists_sampled e
  refine ⟨a, e', he, fun s henv hseeded => ?_⟩
  rw [execPrngUpdate, if_pos hseeded, hsample s henv]
  rfl

/-- Settles O23: the two arms of `PRNG_UPDATE`, told apart by `SEEDED`, and what its sample leaves of the queue. -/
theorem prngUpdateFoldsOneSample : Obligations.PrngUpdateFoldsOneSample := by
  refine ⟨rfl, fun s => ⟨fun h => ?_, execPrngUpdate_of_unseeded⟩⟩
  obtain ⟨a, e, he, hexec⟩ := execPrngUpdate_of_seeded s.env
  refine ⟨a, e, fun b rest hb => ⟨he.fixed b (by simp [hb]), by simp [he.adcIn, hb]⟩, he.script, he.bootIn,
    he.readLog, hexec s rfl h⟩

/-! ### `PRNG_INIT` -/

/-- From the environment `e` one `PRNG_INIT` reads the boot words `ws` and the samples `a1`, `a2`, `a3`, and leaves
`e'`: what the queues hold is read in its place and is used up (log 5, log 24). -/
structure InitDraws (e : Env) (ws : List Word16) (a1 a2 a3 : Word16) (e' : Env) : Prop where
  length : ws.length = seedWords
  words : e.bootIn.take seedWords <+: ws
  bootIn : e'.bootIn = e.bootIn.drop seedWords
  first : ∀ b, e.adcIn[0]? = some b → a1 = b
  second : ∀ b, e.adcIn[1]? = some b → a2 = b
  third : ∀ b, e.adcIn[2]? = some b → a3 = b
  adcIn : e'.adcIn = e.adcIn.drop 3
  script : e'.script = e.script
  readLog : e'.readLog = e.readLog

/-- The state that `PRNG_INIT` folds its draws to (44_prng.md R117). -/
def initialised (ws : List Word16) (a1 a2 a3 : Word16) : Word16 :=
  seedFold ws ^^^ tripleMix a1 ^^^ tripleMix a2 ^^^ tripleMix a3

/-- The events of the draws: the words in ascending order, then the samples. -/
def initEvents (ws : List Word16) (a1 a2 a3 : Word16) : List Event :=
  bootEvents ws ++ [.adc a1, .adc a2, .adc a3]

/-- Each boot-window read carries its index and its word. -/
theorem bootEvents_eq_map_range (ws : List Word16) :
    bootEvents ws = (List.range ws.length).map fun k => .bootRd k (ws.getD k 0) := by
  apply List.ext_getElem
  · simp
  · intro k hk hk'
    have hlt : k < ws.length := by simpa using hk
    simp [bootEvents, hlt]

/-- A second `PRNG_INIT` faults before it reads anything (44_prng.md R117). -/
theorem execPrngInit_of_seeded {s : State} (h : s.seeded = true) :
    execPrngInit s = .next (raiseFault .prngReinit none s) :=
  if_pos h

/-- The boot-window reads as one emission. -/
theorem bootReadAll_eq (count : Nat) (s : State) : bootReadAll count s =
    (bootWords count s.env, { emit (bootEvents (bootWords count s.env)) s with env := afterBootReads count s.env }) :=
  rfl

/-- Three samples, one after the other (44_prng.md R117). -/
theorem exists_noise (e : Env) : ∃ a1 a2 a3 e1 e2 e3, Sampled e a1 e1 ∧ Sampled e1 a2 e2 ∧ Sampled e2 a3 e3 ∧
    ∀ (seed : Word16) (s : State), s.env = e → foldNoise seed s =
      (seed ^^^ tripleMix a1 ^^^ tripleMix a2 ^^^ tripleMix a3,
        { emit [.adc a1, .adc a2, .adc a3] s with env := e3 }) := by
  obtain ⟨a1, e1, hs1, h1⟩ := exists_sampled e
  obtain ⟨a2, e2, hs2, h2⟩ := exists_sampled e1
  obtain ⟨a3, e3, hs3, h3⟩ := exists_sampled e2
  refine ⟨a1, a2, a3, e1, e2, e3, hs1, hs2, hs3, fun seed s henv => ?_⟩
  simp only [foldNoise, h1 s henv, h2 (emit [.adc a1] { s with env := e1 }) rfl,
    h3 (emit [.adc a2] { emit [.adc a1] { s with env := e1 } with env := e2 }) rfl]
  simp [emit]

/-- What the boot window and then three samples give, as the draws of one `PRNG_INIT`. -/
theorem initDraws_of_sampled {e e1 e2 e3 : Env} {a1 a2 a3 : Word16} (h1 : Sampled (afterBootReads seedWords e) a1 e1)
    (h2 : Sampled e1 a2 e2) (h3 : Sampled e2 a3 e3) : InitDraws e (bootWords seedWords e) a1 a2 a3 e3 where
  length := bootWords_length _ _
  words := List.prefix_append _ _
  bootIn := by rw [h3.bootIn, h2.bootIn, h1.bootIn]; rfl
  first := h1.fixed
  second b hb := h2.fixed b (by simpa [h1.adcIn, afterBootReads] using hb)
  third b hb := h3.fixed b (by simpa [h2.adcIn, h1.adcIn, afterBootReads] using hb)
  adcIn := by simp [h3.adcIn, h2.adcIn, h1.adcIn, afterBootReads]
  script := by rw [h3.script, h2.script, h1.script]; rfl
  readLog := by rw [h3.readLog, h2.readLog, h1.readLog]; rfl

/-- An unseeded `PRNG_INIT`, whatever the environment. -/
theorem execPrngInit_of_unseeded (e : Env) : ∃ ws a1 a2 a3 e', InitDraws e ws a1 a2 a3 e' ∧
    ∀ s : State, s.env = e → s.seeded = false →
      execPrngInit s = .next (reportPrng { emit (initEvents ws a1 a2 a3) s with
        prng := initialised ws a1 a2 a3
        seeded := true
        env := e' }) := by
  obtain ⟨a1, a2, a3, e1, e2, e3, h1, h2, h3, hnoise⟩ := exists_noise (afterBootReads seedWords e)
  refine ⟨bootWords seedWords e, a1, a2, a3, e3, initDraws_of_sampled h1 h2 h3, ?_⟩
  rintro s rfl hseeded
  rw [execPrngInit, if_neg (Bool.eq_false_iff.mp hseeded)]
  dsimp only
  rw [hnoise _ _ rfl, bootReadAll_eq, initEvents, emit_append]
  rfl

/-- No device reacts to the draws. -/
theorem foldl_react_initEvents (ws : List Word16) (a1 a2 a3 : Word16) (d : Devices) :
    (initEvents ws a1 a2 a3).foldl Devices.react d = d := by
  rw [initEvents, List.foldl_append, bootEvents, react_bootEvents]
  rfl

theorem emit_initEvents (ws : List Word16) (a1 a2 a3 : Word16) (s : State) :
    emit (initEvents ws a1 a2 a3) s = { s with tr := s.tr ++ initEvents ws a1 a2 a3 } := by
  rw [emit, foldl_react_initEvents]

/-- Settles O21: the two arms of `PRNG_INIT`, told apart by `SEEDED`, and the events of its draws, written out. -/
theorem prngInitFoldsTheDraws : Obligations.PrngInitFoldsTheDraws := by
  refine ⟨rfl, fun s => execPrngInit_of_seeded, fun s h => ?_⟩
  obtain ⟨ws, a1, a2, a3, e, he, hexec⟩ := execPrngInit_of_unseeded s.env
  refine ⟨ws, a1, a2, a3, initialised ws a1 a2 a3, e, he.length, rfl, he.words, he.bootIn, he.first, he.second,
    he.third, he.adcIn, he.script, he.readLog, (hexec s rfl h).trans ?_⟩
  have hevents : bootEvents ws = (List.range 1024).map fun k => .bootRd k (ws.getD k 0) := by
    rw [bootEvents_eq_map_range, he.length]
    rfl
  rw [emit_initEvents, initEvents, hevents, ← List.append_assoc]
  rfl

end Sys2Proof.Machine

/-! SUPPORT. What a step can do, said once: each instruction, each step of the block and each access from outside by
the next states it can lead to. From it: every step completes (70_reset_and_hazards.md R165), the trace only grows
(10_state.md R32), and what writes `PRNG` and `SEEDED` (10_state.md R15, R16). -/

namespace Sys2Proof.Machine

/-! ### The walk from a found node -/

/-- With a positive total the walk takes an edge of positive weight (43_random_walk.md R107). -/
theorem walkFrom_takes_edge {s : State} {n : Node} (hseeded : s.seeded = true) (htotal : 0 < totalWeight n.edges) :
    ∃ e ∈ n.edges, 0 < e.weight.toNat ∧
      walkFrom n s = .next (completeWith (zext16 e.target) { s with prng := tripleMix s.prng }) := by
  obtain ⟨lower, e, upper, hedges, hlower, hupper⟩ :=
    exists_enclosing_edge (Nat.mod_lt (tripleMix s.prng).toNat htotal)
  refine ⟨e, ?_, by omega, walkFrom_of_enclosing hseeded hedges hlower hupper⟩
  rw [hedges]
  exact List.mem_append_cons_self

/-- Settles O20: the node that the statement finds is the one that `NEXT_ID` walks from. -/
theorem nextIdAlwaysPicksAnEdge : Obligations.NextIdAlwaysPicksAnEdge := by
  intro s n hfound hseeded htotal
  rw [← byteOperand_eq_setWidth] at hfound
  obtain ⟨e, he, hweight, hwalk⟩ := walkFrom_takes_edge hseeded htotal
  exact ⟨e, he, hweight, (execNextId_of_found hfound).trans hwalk⟩

/-! ### What an instruction can do -/

/-- The causes that a command raises of itself, before it writes anything (60_exceptions.md R137). -/
def CommandCause (c : Cause) : Prop := c = .badSeq ∨ c = .prngUninit ∨ c = .prngReinit

/-- The next states that an instruction can lead to from `s`, one constructor per case of its meaning. -/
inductive Executes (s : State) : Instr → State → Prop
  | endAct : Executes s .endAct (finishRun (toneMute s))
  | wait (d : Word16) : Executes s (.wait d) (emit [.delayMs (zext32 d)] s)
  | noteSounds (index : Byte) (hz : Word16) : Executes s (.note index) (toneProgram hz s)
  | noteSilent (index : Byte) : Executes s (.note index) s
  | led (p : Byte) : Executes s (.led p) (srUpdate p s)
  | runStarts (h : (seqOperand s).toNat < numSeq s.mem) :
      Executes s .run (runStart (seqOperand s) (startOperand s) s)
  | faults {i : Instr} {c : Cause} (hi : i.format = .cmd) (hc : CommandCause c) :
      Executes s i (raiseFault c none s)
  | sends : Executes s .srUpdate (completeVoid (srUpdate (byteOperand s) s))
  | reports {i : Instr} (hi : i.format = .cmd) (v : Word16) : Executes s i (completeWith v s)
  | clears : Executes s .toneLookup (completeVoid s)
  | zeroTotal (h : s.seeded = true) :
      Executes s .nextId (raiseFault .zeroTotal none { s with prng := tripleMix s.prng })
  | walks (h : s.seeded = true) (target : Byte) :
      Executes s .nextId (completeWith (zext16 target) { s with prng := tripleMix s.prng })
  | seeds {ws : List Word16} {a1 a2 a3 : Word16} {e : Env} (h : s.seeded = false)
      (he : InitDraws s.env ws a1 a2 a3 e) :
      Executes s .prngInit (reportPrng { emit (initEvents ws a1 a2 a3) s with
        prng := initialised ws a1 a2 a3
        seeded := true
        env := e })
  | advances (h : s.seeded = true) : Executes s .prngAdvance (reportPrng { s with prng := tripleMix s.prng })
  | updates {a : Word16} {e : Env} (h : s.seeded = true) (he : Sampled s.env a e) :
      Executes s .prngUpdate (reportPrng { emit [.adc a] s with prng := updated s.prng a, env := e })

/-- The instruction completes, and in a state that `Executes` gives. -/
def Completes (i : Instr) (s : State) : Prop := ∃ t, exec i s = .next t ∧ Executes s i t

theorem completes_note (index : Byte) (s : State) : Completes (.note index) s := by
  obtain h | h := Nat.lt_or_ge index.toNat 128
  · exact ⟨_, execNote_of_inside index s h, .noteSounds index _⟩
  · exact ⟨_, execNote_of_outside index s h, .noteSilent index⟩

theorem completes_run (s : State) : Completes .run s := by
  obtain h | h := Nat.lt_or_ge (seqOperand s).toNat (numSeq s.mem)
  · exact ⟨_, execRun_of_present s h, .runStarts h⟩
  · exact ⟨_, execRun_of_absent s h, .faults rfl (.inl rfl)⟩

theorem completes_toneLookup (s : State) : Completes .toneLookup s := by
  obtain h | h := Nat.lt_or_ge (byteOperand s).toNat 128
  · exact ⟨_, execToneLookup_of_inside s h, .reports rfl _⟩
  · exact ⟨_, execToneLookup_of_outside s h, .clears⟩

/-- The bucket scan is made only where it returns, so `NEXT_ID` answers a next state on every node. -/
theorem completes_nextId (s : State) : Completes .nextId s := by
  cases hfound : findNode s.mem.graph (byteOperand s) with
  | none => exact ⟨completeWith (zext16 (byteOperand s)) s, by simp only [exec, execNextId, hfound], .reports rfl _⟩
  | some n =>
    have hexec : exec .nextId s = walkFrom n s := execNextId_of_found hfound
    cases hseeded : s.seeded with
    | false => exact ⟨_, hexec.trans (walkFrom_of_unseeded n hseeded), .faults rfl (.inr (.inl rfl))⟩
    | true =>
      obtain htotal | htotal := Nat.eq_zero_or_pos (totalWeight n.edges)
      · exact ⟨_, hexec.trans (walkFrom_of_zero_total hseeded htotal), .zeroTotal hseeded⟩
      · obtain ⟨e, -, -, hwalk⟩ := walkFrom_takes_edge hseeded htotal
        exact ⟨_, hexec.trans hwalk, .walks hseeded e.target⟩

theorem completes_prngInit (s : State) : Completes .prngInit s := by
  cases h : s.seeded with
  | true => exact ⟨_, execPrngInit_of_seeded h, .faults rfl (.inr (.inr rfl))⟩
  | false =>
    obtain ⟨ws, a1, a2, a3, e, he, hexec⟩ := execPrngInit_of_unseeded s.env
    exact ⟨_, hexec s rfl h, .seeds h he⟩

theorem completes_prngAdvance (s : State) : Completes .prngAdvance s := by
  cases h : s.seeded with
  | true => exact ⟨_, execPrngAdvance_of_seeded h, .advances h⟩
  | false => exact ⟨_, execPrngAdvance_of_unseeded h, .faults rfl (.inr (.inl rfl))⟩

theorem completes_prngUpdate (s : State) : Completes .prngUpdate s := by
  cases h : s.seeded with
  | true =>
    obtain ⟨a, e, he, hexec⟩ := execPrngUpdate_of_seeded s.env
    exact ⟨_, hexec s rfl h, .updates h he⟩
  | false => exact ⟨_, execPrngUpdate_of_unseeded h, .faults rfl (.inr (.inl rfl))⟩

theorem completes_exec (i : Instr) (s : State) : Completes i s := by
  cases i with
  | endAct => exact ⟨_, rfl, .endAct⟩
  | wait d => exact ⟨_, rfl, .wait d⟩
  | note index => exact completes_note index s
  | led p => exact ⟨_, rfl, .led p⟩
  | run => exact completes_run s
  | srUpdate => exact ⟨_, rfl, .sends⟩
  | toneLookup => exact completes_toneLookup s
  | nextId => exact completes_nextId s
  | prngInit => exact completes_prngInit s
  | prngAdvance => exact completes_prngAdvance s
  | prngUpdate => exact completes_prngUpdate s

/-! ### A host read -/

/-- The values that the spec gives to a read of a slot (10_state.md R23 to R26, R30); the others are any value. -/
structure ReadGives (slot : Slot) (s : State) (v : Word16) : Prop where
  arg0 : slot = .arg0 → v = s.arg0
  arg1 : slot = .arg1 → v = s.arg1
  result : slot = .result → v = s.result
  status : slot = .status → v = statusWord s
  prng : slot = .prng → s.seeded = true → v = s.prng

/-- A host read moves the counter of the free values and the read log, and nothing of the block. -/
theorem hostRead_eq (slot : Slot) (s : State) : ∃ v n,
    hostRead slot s =
      { s with env := { s.env with fresh := n, readLog := s.env.readLog ++ [(slot, v)] } } ∧ ReadGives slot s v := by
  cases slot with
  | prng =>
    cases hs : s.seeded with
    | true =>
      exact ⟨s.prng, s.env.fresh, by simp [hostRead, readSlot, hs], ⟨nofun, nofun, nofun, nofun, fun _ _ => rfl⟩⟩
    | false =>
      exact ⟨_, _, by simp only [hostRead, readSlot, anyRead, hs]; rfl, ⟨nofun, nofun, nofun, nofun, by simp [hs]⟩⟩
  | arg0 => exact ⟨_, s.env.fresh, rfl, ⟨fun _ => rfl, nofun, nofun, nofun, nofun⟩⟩
  | arg1 => exact ⟨_, s.env.fresh, rfl, ⟨nofun, fun _ => rfl, nofun, nofun, nofun⟩⟩
  | result => exact ⟨_, s.env.fresh, rfl, ⟨nofun, nofun, fun _ => rfl, nofun, nofun⟩⟩
  | status => exact ⟨_, s.env.fresh, rfl, ⟨nofun, nofun, nofun, fun _ => rfl, nofun⟩⟩
  | cmd | reserved6 | reserved7 => exact ⟨_, _, rfl, ⟨nofun, nofun, nofun, nofun, nofun⟩⟩

/-- A command code belongs to a command (30_encoding.md R59). -/
theorem format_of_encode_command {i : Instr} {c : Word16} (h : encode i = .command c) : i.format = .cmd := by
  cases i with
  | endAct | wait | note | led => cases h
  | _ => rfl

/-! ### What a turn can do -/

/-- The next states of the block when nothing outside acts (42_sequence_interpreter.md R90). -/
inductive BlockMoves (s : State) : State → Prop
  | rests (h : s.phase ≠ .run) : BlockMoves s s
  | overflows (h : s.phase = .run) : BlockMoves s (raiseFault .indexOverflow (some (fetchSite s)) s)
  | refuses (h : s.phase = .run) : BlockMoves s (raiseFault .illegalAction (some (fetchSite s)) (advancePos s))
  | acts {i : Instr} {t : State} (h : s.phase = .run) (hi : i.format = .act) (ht : Executes (advancePos s) i t) :
      BlockMoves s t

/-- The next states after an access from outside, already taken off the script (45_host_commands.md R124, R135). -/
inductive Serves (s : State) : HostInput → State → Prop
  | commandIgnored (c : Word16) (h : s.phase = .fault) : Serves s (.write .cmd c) s
  | commandFaults (c : Word16) {x : Cause} (h : s.phase ≠ .fault) (hx : x = .cmdWhileBusy ∨ x = .illegalCmd) :
      Serves s (.write .cmd c) (raiseFault x none s)
  | command {c : Word16} {i : Instr} {t : State} (hphase : s.phase ≠ .fault) (hbusy : s.status.busy = false)
      (hi : encode i = .command c) (ht : Executes (accept s) i t) : Serves s (.write .cmd c) t
  | arg0 (v : Word16) : Serves s (.write .arg0 v) { s with arg0 := v }
  | arg1 (v : Word16) : Serves s (.write .arg1 v) { s with arg1 := v }
  | ignored {slot : Slot} (v : Word16) (h : slot ≠ .cmd ∧ slot ≠ .arg0 ∧ slot ≠ .arg1) : Serves s (.write slot v) s
  | read (slot : Slot) : Serves s (.read slot) (hostRead slot s)
  | grant {t : State} (h : BlockMoves s t) : Serves s .grant t
  | await : Serves s .await s
  | driveLow (l : Line) : Serves s (.driveLow l) { s with dev := s.dev.driveLow l }
  | powerCycle : Serves s .powerCycle (powerCycle s)

/-- The next states of a turn: of the block by itself, where no access is to come or the host awaits, or after the next
access of the script. -/
inductive Moves (s : State) : State → Prop
  | block {t : State} (hscript : s.env.script = [] ∨ s.env.script.head? = some .await) (h : BlockMoves s t) :
      Moves s t
  | served {i : HostInput} {rest : List HostInput} {t : State} (hscript : s.env.script = i :: rest)
      (h : Serves (withScript rest s) i t) : Moves s t

/-- Out of a run the block waits. -/
theorem blockStep_of_ne_run {s : State} (h : s.phase ≠ .run) : blockStep s = .next s := by
  unfold blockStep
  split
  · contradiction
  · rfl
  · rfl

theorem blockStep_moves (s : State) : ∃ t, blockStep s = .next t ∧ BlockMoves s t := by
  by_cases hphase : s.phase = .run
  · rw [blockStep_of_run hphase]
    by_cases hpos : s.pos = topPos
    · exact ⟨_, if_pos hpos, .overflows hphase⟩
    · cases hdecode : decodeAction (fetchWord s) with
      | error x => exact ⟨_, runStep_of_illegal s x hpos hdecode, .refuses hphase⟩
      | ok i =>
        obtain ⟨t, hexec, ht⟩ := completes_exec i (advancePos s)
        exact ⟨t, (runStep_of_action s i hpos hdecode).trans hexec, .acts hphase (format_of_decodeAction hdecode) ht⟩
  · exact ⟨s, blockStep_of_ne_run hphase, .rests hphase⟩

theorem hostWriteCmd_serves (c : Word16) (s : State) :
    ∃ t, hostWriteCmd c s = .next t ∧ Serves s (.write .cmd c) t := by
  unfold hostWriteCmd
  by_cases hphase : s.phase = .fault
  · exact ⟨s, if_pos hphase, .commandIgnored c hphase⟩
  · rw [if_neg hphase]
    cases hbusy : s.status.busy with
    | true => exact ⟨_, if_pos rfl, .commandFaults c hphase (.inl rfl)⟩
    | false =>
      cases hdecode : decodeCommand c with
      | error x => exact ⟨_, rfl, .commandFaults c hphase (.inr rfl)⟩
      | ok i =>
        obtain ⟨t, hexec, ht⟩ := completes_exec i (accept s)
        exact ⟨t, hexec, .command hphase hbusy (encode_of_decodeCommand hdecode) ht⟩

theorem hostWrite_serves (slot : Slot) (v : Word16) (s : State) :
    ∃ t, hostWrite slot v s = .next t ∧ Serves s (.write slot v) t := by
  cases slot with
  | cmd => exact hostWriteCmd_serves v s
  | arg0 => exact ⟨_, rfl, .arg0 v⟩
  | arg1 => exact ⟨_, rfl, .arg1 v⟩
  | _ => exact ⟨s, rfl, .ignored v (by decide)⟩

theorem serve_serves (i : HostInput) (s : State) : ∃ t, serve i s = .next t ∧ Serves s i t := by
  cases i with
  | write slot v => exact hostWrite_serves slot v s
  | read slot => exact ⟨_, rfl, .read slot⟩
  | grant =>
    obtain ⟨t, hstep, ht⟩ := blockStep_moves s
    exact ⟨t, hstep, .grant ht⟩
  | await => exact ⟨s, rfl, .await⟩
  | driveLow l => exact ⟨_, rfl, .driveLow l⟩
  | powerCycle => exact ⟨_, rfl, .powerCycle⟩

/-- Every step answers a next state, and one that `Moves` gives. -/
theorem step_moves (s : State) : ∃ t, step s = .next t ∧ Moves s t := by
  rcases hscript : s.env.script with - | ⟨i, rest⟩
  · obtain ⟨t, hstep, ht⟩ := blockStep_moves s
    exact ⟨t, (turn_nil s hscript).trans hstep, .block (.inl hscript) ht⟩
  · by_cases hi : i = .await
    · subst hi
      cases hbusy : s.status.busy with
      | true =>
        obtain ⟨t, hstep, ht⟩ := blockStep_moves s
        exact ⟨t, (turn_await_busy s rest hscript hbusy).trans hstep, .block (.inr (hscript ▸ rfl)) ht⟩
      | false => exact ⟨_, turn_await_ready s rest hscript hbusy, .served hscript .await⟩
    · obtain ⟨t, hstep, ht⟩ := serve_serves i (withScript rest s)
      exact ⟨t, (turn_cons s i rest hscript hi).trans hstep, .served hscript ht⟩

theorem moves_of_step {s t : State} (h : step s = .next t) : Moves s t := by
  obtain ⟨u, hu, hmoves⟩ := step_moves s
  cases hu.symm.trans h
  exact hmoves

/-- Settles O32: the case analysis of a step names a next state in every case. -/
theorem everyStepCompletes : Obligations.EveryStepCompletes := fun s =>
  (step_moves s).imp fun _ h => h.1

/-! ### The trace -/

theorem Executes.trace {i : Instr} {s t : State} (h : Executes s i t) : s.tr <+: t.tr := by
  cases h with
  | endAct | wait | noteSounds | led | sends | seeds | updates => exact List.prefix_append _ _
  | _ => exact List.prefix_rfl

theorem BlockMoves.trace {s t : State} (h : BlockMoves s t) : s.tr <+: t.tr := by
  cases h with
  | acts _ _ ht => exact ht.trace
  | _ => exact List.prefix_rfl

theorem Serves.trace {i : HostInput} {s t : State} (h : Serves s i t) (hi : i ≠ .powerCycle) : s.tr <+: t.tr := by
  cases h with
  | command _ _ _ ht => exact ht.trace
  | grant ht => exact ht.trace
  | read slot =>
    obtain ⟨v, n, hread, -⟩ := hostRead_eq slot s
    rw [hread]
  | powerCycle => exact absurd rfl hi
  | _ => exact List.prefix_rfl

theorem Moves.trace {s t : State} (h : Moves s t) (hcycle : s.env.script.head? ≠ some .powerCycle) :
    s.tr <+: t.tr := by
  cases h with
  | block _ h => exact h.trace
  | served hscript h =>
    refine h.trace fun hi => hcycle ?_
    rw [hscript, hi, List.head?_cons]

/-- Settles O38: a power cycle resets the trace; every other move of the machine appends its events to it. -/
theorem traceOnlyGrows : Obligations.TraceOnlyGrows := by
  intro s t hstep
  refine ⟨fun hcycle => ?_, fun hcycle => ?_⟩
  · obtain ⟨rest, hrest⟩ := List.head?_eq_some_iff.mp hcycle
    have hserve : step s = .next (powerCycle (withScript rest s)) :=
      turn_cons s .powerCycle rest hrest (by decide)
    cases hserve.symm.trans hstep
    rfl
  · obtain ⟨evs, hevs⟩ := (moves_of_step hstep).trace hcycle
    exact ⟨evs, hevs.symm⟩

/-! ### `PRNG` and `SEEDED` -/

/-- The four commands that write `PRNG` (10_state.md R15). -/
def WritesPrng (i : Instr) : Prop := i = .nextId ∨ i = .prngInit ∨ i = .prngAdvance ∨ i = .prngUpdate

/-- What becomes of `PRNG` and `SEEDED` under the instruction `i`. -/
structure PrngFrame (i : Instr) (s t : State) : Prop where
  prng : t.prng = s.prng ∨ WritesPrng i
  seeded : t.seeded = s.seeded ∨ i = .prngInit ∧ t.seeded = true

/-- `t` holds the `PRNG` and the `SEEDED` that `s` holds. -/
def SamePrng (s t : State) : Prop := t.prng = s.prng ∧ t.seeded = s.seeded

theorem Executes.prngFrame {i : Instr} {s t : State} (h : Executes s i t) : PrngFrame i s t := by
  cases h with
  | zeroTotal | walks => exact ⟨.inr (.inl rfl), .inl rfl⟩
  | seeds => exact ⟨.inr (.inr (.inl rfl)), .inr ⟨rfl, rfl⟩⟩
  | advances => exact ⟨.inr (.inr (.inr (.inl rfl))), .inl rfl⟩
  | updates => exact ⟨.inr (.inr (.inr (.inr rfl))), .inl rfl⟩
  | _ => exact ⟨.inl rfl, .inl rfl⟩

/-- No action is among the four commands. -/
theorem PrngFrame.of_action {i : Instr} {s t : State} (h : PrngFrame i s t) (hi : i.format = .act) : SamePrng s t := by
  refine ⟨h.prng.resolve_right ?_, h.seeded.resolve_right ?_⟩
  · rintro (rfl | rfl | rfl | rfl) <;> cases hi
  · rintro ⟨rfl, -⟩
    cases hi

theorem BlockMoves.samePrng {s t : State} (h : BlockMoves s t) : SamePrng s t := by
  cases h with
  | acts _ hi ht => exact ht.prngFrame.of_action hi
  | _ => exact ⟨rfl, rfl⟩

/-- An access but a power cycle leaves `PRNG` and `SEEDED` alone, or is a write to `CMD` of an instruction's code. -/
theorem Serves.prng_cases {i : HostInput} {s t : State} (h : Serves s i t) (hi : i ≠ .powerCycle) :
    SamePrng s t ∨ ∃ c j, i = .write .cmd c ∧ encode j = .command c ∧ PrngFrame j s t := by
  cases h with
  | command _ _ hj ht =>
    have hframe := ht.prngFrame
    exact .inr ⟨_, _, rfl, hj, hframe.prng, hframe.seeded⟩
  | grant ht => exact .inl ht.samePrng
  | read slot =>
    obtain ⟨v, n, hread, -⟩ := hostRead_eq slot s
    rw [hread]
    exact .inl ⟨rfl, rfl⟩
  | powerCycle => exact absurd rfl hi
  | _ => exact .inl ⟨rfl, rfl⟩

theorem Moves.prng_cases {s t : State} (h : Moves s t) (hcycle : s.env.script.head? ≠ some .powerCycle) :
    SamePrng s t ∨
      ∃ c j, s.env.script.head? = some (.write .cmd c) ∧ encode j = .command c ∧ PrngFrame j s t := by
  cases h with
  | block _ h => exact .inl h.samePrng
  | @served i rest t hscript h =>
    have hi : i ≠ .powerCycle := by
      rintro rfl
      exact hcycle (hscript ▸ rfl)
    obtain hsame | ⟨c, j, rfl, hj, hframe⟩ := h.prng_cases hi
    · exact .inl hsame
    · exact .inr ⟨c, j, hscript ▸ rfl, hj, hframe.prng, hframe.seeded⟩

/-- The codes of the four commands are 4 to 7 (30_encoding.md R70). -/
theorem code_of_writesPrng {i : Instr} {c : Word16} (hi : WritesPrng i) (hc : encode i = .command c) :
    4 ≤ c.toNat ∧ c.toNat ≤ 7 := by
  obtain rfl | rfl | rfl | rfl := hi <;> cases hc <;> decide

/-- Settles O39: a step keeps `PRNG` and `SEEDED`, or is a write of a command's code, and only the four commands write
`PRNG`, only `PRNG_INIT` sets `SEEDED`. -/
theorem onlyItsCommandsWriteThePrng : Obligations.OnlyItsCommandsWriteThePrng := by
  intro s t hstep hcycle
  obtain ⟨hprng, hseeded⟩ | ⟨c, i, hhead, hcode, hframe⟩ := (moves_of_step hstep).prng_cases hcycle
  · exact ⟨fun hne => absurd hprng hne, fun h => hseeded.trans h, fun h ht => by simp [hseeded, h] at ht⟩
  · refine ⟨fun hne => ⟨c, hhead, code_of_writesPrng (hframe.prng.resolve_left hne) hcode⟩, fun h => ?_, fun h ht => ?_⟩
    · exact hframe.seeded.elim (fun hsame => hsame.trans h) (fun hinit => hinit.2)
    · obtain hsame | ⟨rfl, -⟩ := hframe.seeded
      · simp [hsame, h] at ht
      · cases hcode
        exact hhead

end Sys2Proof.Machine

/-! SUPPORT. The invariant of the machine, clause by clause: how the lines and the PWM source follow the trace through
an event, what the control registers are after a raise and after a completion, and from both that every move keeps the
invariant. -/

namespace Sys2Proof.Machine

/-! ### The devices follow the trace -/

/-- The event is a call on an output line. -/
def isLine : Event → Bool
  | .line _ _ => true
  | _ => false

theorem react_level_of_not_line {e : Event} (h : isLine e = false) (d : Devices) (l : Line) :
    (d.react e).level l = d.level l := by
  cases e with
  | line => cases h
  | _ => cases l <;> rfl

theorem lastLine_append_line (l m : Line) (b : Bool) (tr : List Event) :
    lastLine l (tr ++ [.line m b]) = if m = l then some b else lastLine l tr := by
  simp [lastLine]

theorem lastLine_append_of_not_line {e : Event} (h : isLine e = false) (l : Line) (tr : List Event) :
    lastLine l (tr ++ [e]) = lastLine l tr := by
  cases e with
  | line => cases h
  | _ => simp [lastLine]

/-- The lines and the PWM source are what the trace says of them (10_state.md R34, R36). -/
structure Follows (s : State) : Prop where
  lines : ∀ l, lineAgrees l s
  pwm : s.dev.pwmFreq = extOf (lastPwmFreq s.tr) ∧ s.dev.pwmDuty = extOf (lastPwmDuty s.tr) ∧
    s.dev.pwmEn = levelOf (lastPwmEn s.tr)

/-- Two states that a line's clause cannot tell apart. -/
theorem lineAgrees_congr {l : Line} {s t : State} (h : lineAgrees l s) (htr : lastLine l t.tr = lastLine l s.tr)
    (hlevel : t.dev.level l = s.dev.level l) : lineAgrees l t := by
  simpa only [lineAgrees, htr, hlevel] using h

theorem lineAgrees_emit_one {l : Line} {s : State} (h : lineAgrees l s) (e : Event) : lineAgrees l (emit [e] s) := by
  cases he : isLine e with
  | false =>
    exact lineAgrees_congr h (lastLine_append_of_not_line he l s.tr) (react_level_of_not_line he s.dev l)
  | true =>
    cases e with
    | line m b =>
      by_cases hm : m = l
      · subst hm
        have hlevel := react_line_level s.dev m b
        simpa [lineAgrees, lastLine_append_line] using hlevel
      · refine lineAgrees_congr h ?_ (react_line_other s.dev m l b (Ne.symm hm))
        rw [emit_tr, lastLine_append_line, if_neg hm]
    | _ => cases he

/-- An event sets at most one field of the PWM source, the one that the trace then ends with. -/
theorem Follows.emit_one {s : State} (h : Follows s) (e : Event) : Follows (emit [e] s) := by
  refine ⟨fun l => lineAgrees_emit_one (h.lines l) e, ?_⟩
  obtain ⟨hfreq, hduty, hen⟩ := h.pwm
  cases e with
  | line l b =>
    obtain ⟨hf, hd, hn⟩ := react_line_pwm s.dev l b
    simp [hf, hd, hn, hfreq, hduty, hen, lastPwmFreq, lastPwmDuty, lastPwmEn]
  | _ => simp [Devices.react, hfreq, hduty, hen, lastPwmFreq, lastPwmDuty, lastPwmEn, extOf, levelOf, Level.ofBool]

theorem Follows.emit {s : State} (h : Follows s) (evs : List Event) : Follows (Machine.emit evs s) := by
  induction evs generalizing s with
  | nil => rwa [emit_nil]
  | cons e evs ih =>
    rw [← List.singleton_append, emit_append]
    exact ih (h.emit_one e)

/-! ### The clauses on the trace and the devices -/

/-- The clauses of the invariant that speak of the trace, the devices and `SEEDED`. -/
structure Wired (s : State) : Prop extends Follows s where
  clockLow : s.dev.clk ≠ .high ∧ s.dev.latch ≠ .high
  bootOnce : s.tr.countP Event.isBootRd = bif s.seeded then seedWords else 0

theorem Wired.congr {s t : State} (h : Wired s) (htr : t.tr = s.tr) (hdev : t.dev = s.dev)
    (hseeded : t.seeded = s.seeded) : Wired t where
  lines l := lineAgrees_congr (h.lines l) (by rw [htr]) (by rw [hdev])
  pwm := by simpa only [htr, hdev] using h.pwm
  clockLow := by simpa only [hdev] using h.clockLow
  bootOnce := by simpa only [htr, hseeded] using h.bootOnce

/-- The event drives no line and reads no boot word. -/
def isPlain (e : Event) : Bool := !isLine e && !e.isBootRd

theorem isPlain_iff (e : Event) : isPlain e = true ↔ isLine e = false ∧ e.isBootRd = false := by
  simp [isPlain]

theorem Wired.emit_one {s : State} (h : Wired s) {e : Event} (he : isPlain e = true) : Wired (Machine.emit [e] s) := by
  obtain ⟨hline, hboot⟩ := (isPlain_iff e).mp he
  have hclk : (s.dev.react e).clk = s.dev.clk := react_level_of_not_line hline s.dev .clk
  have hlatch : (s.dev.react e).latch = s.dev.latch := react_level_of_not_line hline s.dev .latch
  refine ⟨h.toFollows.emit_one e, ?_, ?_⟩
  · rw [emit_dev, List.foldl_cons, List.foldl_nil, hclk, hlatch]
    exact h.clockLow
  · rw [emit_tr, List.countP_append, List.countP_singleton, hboot]
    exact h.bootOnce

theorem Wired.emit {s : State} (h : Wired s) {evs : List Event} (hevs : ∀ e ∈ evs, isPlain e = true) :
    Wired (Machine.emit evs s) := by
  induction evs generalizing s with
  | nil => rwa [emit_nil]
  | cons e evs ih =>
    rw [← List.singleton_append, emit_append]
    exact ih (h.emit_one (hevs e (.head _))) fun e' he' => hevs e' (.tail _ he')

/-- Settling the register touches neither the lines nor the PWM source. -/
theorem Follows.settle {s : State} (h : Follows s) (c : Config) :
    Follows { s with dev := settleRegister c s.dev } := by
  obtain ⟨shift, out, hsettle⟩ := settleRegister_frame c s.dev
  rw [hsettle]
  refine ⟨fun l => lineAgrees_congr (h.lines l) rfl ?_, h.pwm⟩
  cases l <;> rfl

/-- An update leaves `CLK` and `LATCH` low (40_shift_register.md R77). -/
theorem Wired.srUpdate {s : State} (h : Wired s) (p : Byte) : Wired (Machine.srUpdate p s) := by
  have hleaves := driverLeaves_srUpdate p s
  refine ⟨(h.toFollows.emit _).settle s.cfg, ?_, ?_⟩
  · rw [hleaves.clk, hleaves.latch]
    exact ⟨nofun, nofun⟩
  · have hcount : (srEvents (subPhaseArg s.cfg) p).countP Event.isBootRd = 0 :=
      countP_srEvents Event.isBootRd _ p 0 fun _ => rfl
    rw [srUpdate_tr, List.countP_append, hcount]
    exact h.bootOnce

theorem countP_isBootRd_initEvents {ws : List Word16} (h : ws.length = seedWords) (a1 a2 a3 : Word16) :
    (initEvents ws a1 a2 a3).countP Event.isBootRd = seedWords := by
  have hboot : (bootEvents ws).countP Event.isBootRd = ws.length := by
    rw [List.countP_eq_length.mpr, bootEvents_length]
    intro e he
    obtain ⟨p, -, rfl⟩ := List.mem_map.mp he
    rfl
  rw [initEvents, List.countP_append, hboot, h]
  rfl

/-- Seeding reads the whole boot window, once (20_memory.md R48). -/
theorem Wired.seed {s : State} (h : Wired s) (hseeded : s.seeded = false) {ws : List Word16}
    (hws : ws.length = seedWords) (a1 a2 a3 v : Word16) (e : Env) :
    Wired { Machine.emit (initEvents ws a1 a2 a3) s with prng := v, seeded := true, env := e } := by
  have hfollows := h.toFollows.emit (initEvents ws a1 a2 a3)
  refine ⟨⟨hfollows.lines, hfollows.pwm⟩, ?_, ?_⟩
  · rw [emit_initEvents]
    exact h.clockLow
  · have hbefore : s.tr.countP Event.isBootRd = 0 := h.bootOnce.trans (by rw [hseeded]; rfl)
    rw [emit_tr, List.countP_append, hbefore, countP_isBootRd_initEvents hws]
    rfl

/-! ### The boot drive of a line -/

/-- The devices with one line made low. -/
def Devices.lowered (d : Devices) : Line → Devices
  | .data => { d with data := .low }
  | .clk => { d with clk := .low }
  | .latch => { d with latch := .low }

theorem level_lowered (d : Devices) (l m : Line) :
    (d.lowered l).level m = if m = l then .low else d.level m := by
  cases l <;> cases m <;> rfl

/-- A drive makes an unknown line low and leaves a line that the block has driven alone (log 13). -/
theorem driveLow_eq (d : Devices) (l : Line) :
    d.driveLow l = if d.level l = .unknown then d.lowered l else d := by
  cases l with
  | data => cases h : d.data <;> simp [Devices.driveLow, Devices.level, Devices.lowered, h]
  | clk => cases h : d.clk <;> simp [Devices.driveLow, Devices.level, Devices.lowered, h]
  | latch => cases h : d.latch <;> simp [Devices.driveLow, Devices.level, Devices.lowered, h]

theorem level_driveLow (d : Devices) (l m : Line) :
    (d.driveLow l).level m = if m = l ∧ d.level m = .unknown then .low else d.level m := by
  rw [driveLow_eq]
  by_cases hm : m = l
  · subst hm
    split <;> simp [*, level_lowered]
  · split <;> simp [level_lowered, hm]

theorem driveLow_pwm (d : Devices) (l : Line) : (d.driveLow l).pwmFreq = d.pwmFreq ∧
    (d.driveLow l).pwmDuty = d.pwmDuty ∧ (d.driveLow l).pwmEn = d.pwmEn := by
  rw [driveLow_eq]
  split
  · cases l <;> exact ⟨rfl, rfl, rfl⟩
  · exact ⟨rfl, rfl, rfl⟩

/-- No drive raises a line. -/
theorem driveLow_ne_high {d : Devices} {m : Line} (h : d.level m ≠ .high) (l : Line) :
    (d.driveLow l).level m ≠ .high := by
  rw [level_driveLow]
  split
  · exact nofun
  · exact h

/-- A line that the trace has driven is known, so a drive leaves it; any other is unknown or low after it. -/
theorem lineAgrees_driveLow {m : Line} {s : State} (h : lineAgrees m s) (l : Line) :
    lineAgrees m { s with dev := s.dev.driveLow l } := by
  unfold lineAgrees at h ⊢
  dsimp only at h ⊢
  rw [level_driveLow]
  cases hlast : lastLine m s.tr with
  | some b =>
    rw [hlast] at h
    have hknown : s.dev.level m ≠ .unknown := by
      rw [h]
      cases b <;> exact nofun
    simpa [hknown] using h
  | none =>
    rw [hlast] at h
    change _ ∨ _
    split
    · exact .inr rfl
    · exact h

theorem Wired.driveLow {s : State} (h : Wired s) (l : Line) : Wired { s with dev := s.dev.driveLow l } := by
  obtain ⟨hfreq, hduty, hen⟩ := driveLow_pwm s.dev l
  refine ⟨⟨fun m => lineAgrees_driveLow (h.lines m) l, ?_⟩, ?_, h.bootOnce⟩
  · simpa only [hfreq, hduty, hen] using h.pwm
  · obtain ⟨hclk, hlatch⟩ := h.clockLow
    exact ⟨driveLow_ne_high (m := .clk) hclk l, driveLow_ne_high (m := .latch) hlatch l⟩

/-! ### The clauses on the control registers -/

/-- The two causes that a fetch raises (60_exceptions.md R138). -/
def FetchCause (c : Cause) : Prop := c = .illegalAction ∨ c = .indexOverflow

/-- The clauses of the invariant that speak of the control registers and hold inside a step too, where `BUSY` may be
set for a command. -/
structure Controlled (s : State) : Prop where
  faultPhase : s.status.fault = decide (s.phase = .fault)
  causeZero : s.status.cause = .noFault ↔ s.phase ≠ .fault
  reasonCause : s.phase = .fault → s.faultReason.map FaultReason.cause = some s.status.cause
  noReason : s.phase ≠ .fault → s.faultReason = none
  reasonSite : ∀ r, s.faultReason = some r → (r.site.isSome = true ↔ FetchCause r.cause)
  runSeq : s.phase = .run → s.curSeq.toNat < s.mem.seqs.length
  memForm : s.mem.wf = true

/-- Out of `FAULT` the control registers say that no fault has been taken. -/
theorem Controlled.of_no_fault {s : State} (hphase : s.phase ≠ .fault) (hfault : s.status.fault = false)
    (hcause : s.status.cause = .noFault) (hreason : s.faultReason = none)
    (hseq : s.phase = .run → s.curSeq.toNat < s.mem.seqs.length) (hmem : s.mem.wf = true) : Controlled s where
  faultPhase := by rw [hfault, decide_eq_false hphase]
  causeZero := ⟨fun _ => hphase, fun _ => hcause⟩
  reasonCause h := absurd h hphase
  noReason _ := hreason
  reasonSite r hr := by simp [hreason] at hr
  runSeq := hseq
  memForm := hmem

/-- `t` holds the control registers that the clauses speak of as `s` does. -/
structure SameControl (s t : State) : Prop where
  phase : t.phase = s.phase
  fault : t.status.fault = s.status.fault
  cause : t.status.cause = s.status.cause
  reason : t.faultReason = s.faultReason
  curSeq : t.curSeq = s.curSeq
  mem : t.mem = s.mem

theorem Controlled.congr {s t : State} (h : Controlled s) (hst : SameControl s t) : Controlled t where
  faultPhase := by simpa only [hst.fault, hst.phase] using h.faultPhase
  causeZero := by simpa only [hst.cause, hst.phase] using h.causeZero
  reasonCause := by simpa only [hst.phase, hst.reason, hst.cause] using h.reasonCause
  noReason := by simpa only [hst.phase, hst.reason] using h.noReason
  reasonSite := by simpa only [hst.reason] using h.reasonSite
  runSeq := by simpa only [hst.phase, hst.curSeq, hst.mem] using h.runSeq
  memForm := by simpa only [hst.mem] using h.memForm

/-- Going to `IDLE` or `RUN`, out of `FAULT` and with the fault registers kept. -/
theorem Controlled.next {s t : State} (h : Controlled s) (hs : s.phase ≠ .fault) (ht : t.phase ≠ .fault)
    (hstatus : t.status.fault = s.status.fault ∧ t.status.cause = s.status.cause)
    (hreason : t.faultReason = s.faultReason) (hmem : t.mem = s.mem)
    (hseq : t.phase = .run → t.curSeq.toNat < t.mem.seqs.length) : Controlled t := by
  refine .of_no_fault ht ?_ (hstatus.2.trans (h.causeZero.mpr hs)) (hreason.trans (h.noReason hs)) hseq ?_
  · rw [hstatus.1, h.faultPhase, decide_eq_false hs]
  · rw [hmem]
    exact h.memForm

theorem Controlled.raise {s : State} (hmem : s.mem.wf = true) {c : Cause} {x : Option FetchSite} (hc : c ≠ .noFault)
    (hx : x.isSome = true ↔ FetchCause c) : Controlled (raiseFault c x s) where
  faultPhase := rfl
  causeZero := ⟨fun h => absurd h hc, fun h => absurd rfl h⟩
  reasonCause _ := rfl
  noReason h := absurd rfl h
  reasonSite r hr := by
    cases hr
    exact hx
  runSeq h := by cases h
  memForm := hmem

/-! ### The invariant from its parts -/

/-- What holds inside a step: the clauses on the control registers, on the trace and on the devices. -/
structure Sound (s : State) : Prop where
  control : Controlled s
  wired : Wired s

theorem Coherent.sound {s : State} (h : Coherent s) : Sound s where
  control := ⟨h.faultPhase, h.causeZero, h.reasonCause, h.noReason, h.reasonSite, h.runSeq, h.memForm⟩
  wired := ⟨⟨h.lines, h.pwm⟩, h.clockLow, h.bootOnce⟩

theorem Sound.coherent {s : State} (h : Sound s) (hbusy : s.status.busy = decide (s.phase = .run))
    (hquiet : s.phase = .idle → s.dev.pwmEn ≠ .high) : Coherent s where
  busyRun := hbusy
  faultPhase := h.control.faultPhase
  causeZero := h.control.causeZero
  reasonCause := h.control.reasonCause
  noReason := h.control.noReason
  reasonSite := h.control.reasonSite
  runSeq := h.control.runSeq
  memForm := h.control.memForm
  lines := h.wired.lines
  clockLow := h.wired.clockLow
  pwm := h.wired.pwm
  bootOnce := h.wired.bootOnce
  quiet := hquiet

theorem Sound.coherent_of_run {s : State} (h : Sound s) (hphase : s.phase = .run) (hbusy : s.status.busy = true) :
    Coherent s :=
  h.coherent (by rw [hbusy, hphase]; rfl) fun hidle => nomatch hphase.symm.trans hidle

theorem Sound.coherent_of_idle {s : State} (h : Sound s) (hphase : s.phase = .idle) (hbusy : s.status.busy = false)
    (hquiet : s.dev.pwmEn ≠ .high) : Coherent s :=
  h.coherent (by rw [hbusy, hphase]; rfl) fun _ => hquiet

/-- Taking a fault keeps the invariant, from any state that its other clauses hold of (60_exceptions.md R139). -/
theorem coherent_raiseFault {s : State} (hwired : Wired s) (hmem : s.mem.wf = true) {c : Cause}
    {x : Option FetchSite} (hc : c ≠ .noFault) (hx : x.isSome = true ↔ FetchCause c) : Coherent (raiseFault c x s) :=
  Sound.coherent ⟨.raise hmem hc hx, hwired.congr rfl rfl rfl⟩ rfl nofun

/-- A write that no clause speaks of. -/
theorem Coherent.congr {s t : State} (h : Coherent s) (hcontrol : SameControl s t)
    (hbusy : t.status.busy = s.status.busy) (htr : t.tr = s.tr) (hdev : t.dev = s.dev)
    (hseeded : t.seeded = s.seeded) : Coherent t := by
  refine Sound.coherent ⟨h.sound.control.congr hcontrol, h.sound.wired.congr htr hdev hseeded⟩ ?_ ?_
  · rw [hbusy, hcontrol.phase]
    exact h.busyRun
  · rw [hdev, hcontrol.phase]
    exact h.quiet

/-! ### The instructions -/

theorem Sound.emit {s : State} (h : Sound s) {evs : List Event} (hevs : ∀ e ∈ evs, isPlain e = true) :
    Sound (Machine.emit evs s) :=
  ⟨h.control.congr ⟨rfl, rfl, rfl, rfl, rfl, rfl⟩, h.wired.emit hevs⟩

theorem Sound.srUpdate {s : State} (h : Sound s) (p : Byte) : Sound (Machine.srUpdate p s) :=
  ⟨h.control.congr ⟨rfl, rfl, rfl, rfl, rfl, rfl⟩, h.wired.srUpdate p⟩

/-- An action of a run goes on running or, muted, to `IDLE`. -/
theorem Executes.coherent_of_action {i : Instr} {s t : State} (h : Executes s i t) (hi : i.format = .act)
    (hs : Sound s) (hphase : s.phase = .run) (hbusy : s.status.busy = true) : Coherent t := by
  cases h with
  | endAct =>
    have hmuted : Sound (toneMute s) := hs.emit (by simp [isPlain, isLine, Event.isBootRd])
    have hcontrol : Controlled (finishRun (toneMute s)) :=
      hmuted.control.next (by simp [toneMute, hphase]) nofun ⟨rfl, rfl⟩ rfl rfl nofun
    exact Sound.coherent_of_idle ⟨hcontrol, hmuted.wired.congr rfl rfl rfl⟩ rfl rfl nofun
  | wait d => exact (hs.emit (by simp [isPlain, isLine, Event.isBootRd])).coherent_of_run hphase hbusy
  | noteSounds => exact (hs.emit (by simp [isPlain, isLine, Event.isBootRd])).coherent_of_run hphase hbusy
  | noteSilent => exact hs.coherent_of_run hphase hbusy
  | led p => exact (hs.srUpdate p).coherent_of_run hphase hbusy
  | faults hcmd => cases hcmd.symm.trans hi
  | reports hcmd => cases hcmd.symm.trans hi
  | _ => cases hi

/-- A command's own causes are none of a fetch's. -/
theorem commandCause_spec {c : Cause} (h : CommandCause c) : c ≠ .noFault ∧ ¬FetchCause c := by
  obtain rfl | rfl | rfl := h <;> exact ⟨nofun, by rintro (h | h) <;> cases h⟩

/-- A command that completes at once leaves the block in `IDLE` with `BUSY` cleared. -/
theorem coherent_of_completed {s t : State} (hs : Controlled s) (hphase : s.phase = .idle) (hst : SameControl s t)
    (hbusy : t.status.busy = false) (hwired : Wired t) (hquiet : t.dev.pwmEn ≠ .high) : Coherent t :=
  Sound.coherent_of_idle ⟨hs.congr hst, hwired⟩ (hst.phase.trans hphase) hbusy hquiet

/-- An accepted command starts a run, raises a fault, or completes at once without sounding a tone. -/
theorem Executes.coherent_of_command {i : Instr} {s t : State} (h : Executes s i t) (hi : i.format = .cmd)
    (hs : Sound s) (hphase : s.phase = .idle) (hbusy : s.status.busy = true) (hquiet : s.dev.pwmEn ≠ .high) :
    Coherent t := by
  cases h with
  | runStarts hseq =>
    have hcontrol : Controlled (runStart (seqOperand s) (startOperand s) s) :=
      hs.control.next (by simp [hphase]) nofun ⟨rfl, rfl⟩ rfl rfl fun _ => hseq
    exact Sound.coherent_of_run ⟨hcontrol, hs.wired.congr rfl rfl rfl⟩ rfl hbusy
  | faults _ hc =>
    obtain ⟨hcause, hfetch⟩ := commandCause_spec hc
    exact coherent_raiseFault hs.wired hs.control.memForm hcause (by simp [hfetch])
  | zeroTotal =>
    have hmixed : Wired { s with prng := tripleMix s.prng } := hs.wired.congr rfl rfl rfl
    exact coherent_raiseFault hmixed hs.control.memForm (by decide) (by simp [FetchCause])
  | sends =>
    refine coherent_of_completed hs.control hphase ⟨rfl, rfl, rfl, rfl, rfl, rfl⟩ rfl
      ((hs.wired.srUpdate _).congr rfl rfl rfl) ?_
    rw [completeVoid_dev, (driverLeaves_srUpdate _ s).pwmEn]
    exact hquiet
  | @seeds ws a1 a2 a3 e hseeded he =>
    have hseed := hs.wired.seed hseeded he.length a1 a2 a3 (initialised ws a1 a2 a3) e
    refine coherent_of_completed hs.control hphase ⟨rfl, rfl, rfl, rfl, rfl, rfl⟩ rfl
      (hseed.congr rfl rfl rfl) ?_
    rw [emit_initEvents]
    exact hquiet
  | updates =>
    exact coherent_of_completed hs.control hphase ⟨rfl, rfl, rfl, rfl, rfl, rfl⟩ rfl
      ((hs.wired.emit (by simp [isPlain, isLine, Event.isBootRd])).congr rfl rfl rfl) hquiet
  | reports | clears | walks | advances =>
    exact coherent_of_completed hs.control hphase ⟨rfl, rfl, rfl, rfl, rfl, rfl⟩ rfl (hs.wired.congr rfl rfl rfl)
      hquiet
  | _ => cases hi

/-! ### The turns -/

theorem Sound.advancePos {s : State} (h : Sound s) : Sound (Machine.advancePos s) :=
  ⟨h.control.congr ⟨rfl, rfl, rfl, rfl, rfl, rfl⟩, h.wired.congr rfl rfl rfl⟩

theorem Sound.accept {s : State} (h : Sound s) : Sound (Machine.accept s) :=
  ⟨h.control.congr ⟨rfl, rfl, rfl, rfl, rfl, rfl⟩, h.wired.congr rfl rfl rfl⟩

theorem BlockMoves.coherent {s t : State} (h : BlockMoves s t) (hs : Coherent s) : Coherent t := by
  cases h with
  | rests => exact hs
  | overflows => exact coherent_raiseFault hs.sound.wired hs.memForm (by decide) (by simp [FetchCause])
  | refuses =>
    have hadvanced := hs.sound.advancePos
    exact coherent_raiseFault hadvanced.wired hadvanced.control.memForm (by decide) (by simp [FetchCause])
  | acts hphase hi ht =>
    exact ht.coherent_of_action hi hs.sound.advancePos hphase (by simp [hs.busyRun, hphase])

/-- A block that is neither faulted nor busy is idle. -/
theorem Coherent.idle {s : State} (h : Coherent s) (hphase : s.phase ≠ .fault) (hbusy : s.status.busy = false) :
    s.phase = .idle := by
  have hrun : s.phase ≠ .run := of_decide_eq_false (h.busyRun.symm.trans hbusy)
  cases hp : s.phase with
  | idle => rfl
  | run => exact absurd hp hrun
  | fault => exact absurd hp hphase

theorem coherent_reset {m : Memory} (hmem : m.wf = true) (c : Config) (e : Env) :
    Coherent { State.reset with mem := m, cfg := c, env := e } := by
  refine Sound.coherent_of_idle ⟨.of_no_fault nofun rfl rfl rfl nofun hmem, ⟨fun l => ?_, rfl, rfl, rfl⟩, ?_, rfl⟩
    rfl rfl nofun
  · cases l <;> exact .inl rfl
  · exact ⟨nofun, nofun⟩

theorem Serves.coherent {i : HostInput} {s t : State} (h : Serves s i t) (hs : Coherent s) : Coherent t := by
  cases h with
  | commandIgnored | ignored | await => exact hs
  | commandFaults c _ hx =>
    obtain rfl | rfl := hx <;> exact coherent_raiseFault hs.sound.wired hs.memForm (by decide) (by simp [FetchCause])
  | command hphase hbusy hi ht =>
    have hidle := hs.idle hphase hbusy
    exact ht.coherent_of_command (format_of_encode_command hi) hs.sound.accept hidle rfl (hs.quiet hidle)
  | arg0 | arg1 => exact hs.congr ⟨rfl, rfl, rfl, rfl, rfl, rfl⟩ rfl rfl rfl rfl
  | read slot =>
    obtain ⟨v, n, hread, -⟩ := hostRead_eq slot s
    rw [hread]
    exact hs.congr ⟨rfl, rfl, rfl, rfl, rfl, rfl⟩ rfl rfl rfl rfl
  | grant hblock => exact hblock.coherent hs
  | driveLow l =>
    refine Sound.coherent ⟨hs.sound.control.congr ⟨rfl, rfl, rfl, rfl, rfl, rfl⟩, hs.sound.wired.driveLow l⟩
      hs.busyRun fun hidle => ?_
    rw [(driveLow_pwm s.dev l).2.2]
    exact hs.quiet hidle
  | powerCycle => exact coherent_reset hs.memForm s.cfg s.env

theorem Moves.coherent {s t : State} (h : Moves s t) (hs : Coherent s) : Coherent t := by
  cases h with
  | block _ h => exact h.coherent hs
  | served _ h => exact h.coherent (hs.congr ⟨rfl, rfl, rfl, rfl, rfl, rfl⟩ rfl rfl rfl rfl)

/-- Settles O30: the registers at reset say that no fault has been taken, and an empty trace leaves every device
unknown. -/
theorem invariantHoldsAtReset : Obligations.InvariantHoldsAtReset :=
  ⟨coherent_reset (m := Memory.unloaded) (by decide) _ _, fun _ c e hmem => coherent_reset hmem c e⟩

/-- Settles O31: every move of the machine keeps the invariant, by the cases of what a step can do. -/
theorem everyStepKeepsTheInvariant : Obligations.EveryStepKeepsTheInvariant :=
  fun _ _ hs hstep => (moves_of_step hstep).coherent hs

end Sys2Proof.Machine

/-! SUPPORT. Whole runs (42_sequence_interpreter.md R90, R96 to R100): the actions before the first position that ends
the run, by induction on their number, and the step that ends it. -/

namespace Sys2Proof.Machine

/-! ### A step of a run -/

/-- `INDEX_OVERFLOW` at the top position, before `POS` changes (60_exceptions.md R142). -/
theorem runStep_of_top {s : State} (h : s.pos = topPos) :
    runStep s = .next (raiseFault .indexOverflow (some (fetchSite s)) s) :=
  if_pos h

/-- In a run the three ways of the host to leave a turn to the block come to a `RunStep` (log 12). -/
theorem step_eq_runStep {s u : State} (hphase : s.phase = .run)
    (h : s.env.script = [] ∧ u = s ∨
      (∃ rest, s.env.script = .grant :: rest ∧ u = { s with env := { s.env with script := rest } }) ∨
      (∃ rest, s.env.script = .await :: rest ∧ s.status.busy = true ∧ u = s)) : step s = runStep u := by
  obtain ⟨hscript, rfl⟩ | ⟨rest, hscript, rfl⟩ | ⟨rest, hscript, hbusy, rfl⟩ := h
  · exact step_of_run u hphase hscript
  · exact (turn_cons s .grant rest hscript (by decide)).trans (blockStep_of_run hphase)
  · exact (turn_await_busy u rest hscript hbusy).trans (blockStep_of_run hphase)

/-- Settles O8: a turn left to the block in a run is a `RunStep`, which overflows, runs the action or faults at the
word. -/
theorem runStepRunsTheFetchedAction : Obligations.RunStepRunsTheFetchedAction := by
  intro s u hphase hturn
  rw [step_eq_runStep hphase hturn]
  obtain ⟨script, rfl⟩ : ∃ script, u = withScript script s := by
    obtain ⟨-, rfl⟩ | ⟨rest, -, rfl⟩ | ⟨rest, -, -, rfl⟩ := hturn
    · exact ⟨u.env.script, rfl⟩
    · exact ⟨rest, rfl⟩
    · exact ⟨u.env.script, rfl⟩
  refine ⟨fun hpos => ?_, fun i hpos hdecode => ?_, fun x hpos hdecode => ?_⟩
  · have hsite : fetchSite (withScript script s) = ⟨s.curSeq, 0xFFFF⟩ := congrArg (FetchSite.mk s.curSeq) hpos
    rw [← hsite]
    exact runStep_of_top hpos
  · exact runStep_of_action _ i hpos hdecode
  · exact runStep_of_illegal _ x hpos hdecode

/-! ### The actions of a run -/

/-- The position holds an action that does not end the run. -/
def Continues (m : Memory) (q : Byte) (j : Nat) : Prop :=
  ∃ i, decodeAction (wordAt m q j) = .ok i ∧ i ≠ .endAct

/-- An action but `End` appends its events and moves the devices with them, and changes nothing else. -/
theorem exec_action_eq {i : Instr} (hi : i.format = .act) (hne : i ≠ .endAct) (s : State) :
    ∃ d, exec i s = .next { s with tr := s.tr ++ actionTrace s.mem s.cfg i, dev := d } := by
  cases i with
  | endAct => exact absurd rfl hne
  | wait d => exact ⟨s.dev, execWait_eq d s⟩
  | note index =>
    by_cases h : index.toNat < 128
    · refine ⟨(toneProgram (s.mem.freqTable[index.toNat]'h) s).dev, (execNote_of_inside index s h).trans ?_⟩
      simp only [actionTrace, dif_pos h]
      rfl
    · refine ⟨s.dev, (execNote_of_outside index s (Nat.not_lt.mp h)).trans ?_⟩
      simp only [actionTrace, dif_neg h, List.append_nil]
  | led p => exact ⟨(srUpdate p s).dev, congrArg Host.Outcome.next (srUpdate_eq p s)⟩
  | _ => cases hi

/-- What `n` actions of a run leave, from `s`: `POS` past them, their events on the trace, and the devices as `d`. -/
def afterActions (s : State) (n : Nat) (d : Devices) : State :=
  { s with
    pos := BitVec.ofNat 16 (s.pos.toNat + n)
    tr := s.tr ++ runTrace s.mem s.cfg s.curSeq s.pos.toNat n
    dev := d }

theorem afterActions_zero (s : State) : afterActions s 0 s.dev = s := by
  simp [afterActions, runTrace]

/-- The word that is fetched after `n` actions. -/
theorem fetchWord_afterActions (s : State) (d : Devices) {n : Nat} (h : s.pos.toNat + n ≤ 65535) :
    fetchWord (afterActions s n d) = wordAt s.mem s.curSeq (s.pos.toNat + n) := by
  have hpos : (afterActions s n d).pos.toNat = s.pos.toNat + n := by
    rw [afterActions, BitVec.toNat_ofNat]
    omega
  exact congrArg (wordAt s.mem s.curSeq) hpos

theorem afterActions_pos_ne_top {s : State} {d : Devices} {n : Nat} (h : s.pos.toNat + n < 65535) :
    (afterActions s n d).pos ≠ topPos := by
  refine ne_topPos_of_lt ?_
  rw [afterActions, BitVec.toNat_ofNat]
  omega

/-- One action more. -/
theorem step_afterActions {s : State} (hphase : s.phase = .run) (hscript : s.env.script = []) (d : Devices) {n : Nat}
    (hn : s.pos.toNat + n < 65535) (h : Continues s.mem s.curSeq (s.pos.toNat + n)) :
    ∃ d', step (afterActions s n d) = .next (afterActions s (n + 1) d') := by
  obtain ⟨i, hdecode, hne⟩ := h
  have hfetch := fetchWord_afterActions s d (Nat.le_of_lt hn)
  obtain ⟨d', hexec⟩ := exec_action_eq (format_of_decodeAction hdecode) hne (advancePos (afterActions s n d))
  refine ⟨d', ?_⟩
  rw [step_of_run (afterActions s n d) hphase hscript, runStep_of_action _ i (afterActions_pos_ne_top hn) (hfetch ▸ hdecode),
    hexec]
  simp [afterActions, runTrace, hdecode, advancePos, BitVec.add_assoc, BitVec.ofNat_add]

/-! ### Runs of the machine -/

/-- A step before `n` steps, of any machine. -/
theorem hostRun_of_step (M : Host.Core) {s u : M.State} (h : M.step s = .next u) (n : Nat) :
    M.run (n + 1) s = M.run n u := by
  rw [Host.Core.run, h]

/-- A step before `n` steps. -/
theorem run_of_step {s u : State} (h : step s = .next u) (n : Nat) :
    Sys2Proof.core.run (n + 1) s = Sys2Proof.core.run n u :=
  hostRun_of_step Sys2Proof.core h n

/-- A step after `n` steps. -/
theorem run_succ_of_next {n : Nat} {s t : State} (h : Sys2Proof.core.run n s = .next t) :
    Sys2Proof.core.run (n + 1) s = step t := by
  obtain ⟨u, hu, -⟩ := step_moves s
  rw [run_of_step hu]
  induction n generalizing s u with
  | zero =>
    cases h
    exact hu.symm
  | succ n ih =>
    rw [run_of_step hu] at h
    obtain ⟨v, hv, -⟩ := step_moves u
    rw [run_of_step hv]
    exact ih h v hv

/-- As long as the positions hold actions that do not end it, a run performs them. -/
theorem run_actions {s : State} (hphase : s.phase = .run) (hscript : s.env.script = []) {n : Nat}
    (hn : s.pos.toNat + n ≤ 65535)
    (hactions : ∀ j, s.pos.toNat ≤ j → j < s.pos.toNat + n → Continues s.mem s.curSeq j) :
    ∃ d, Sys2Proof.core.run n s = .next (afterActions s n d) := by
  induction n with
  | zero => exact ⟨s.dev, congrArg Host.Outcome.next (afterActions_zero s).symm⟩
  | succ n ih =>
    obtain ⟨d, hrun⟩ := ih (by omega) fun j hj hj' => hactions j hj (by omega)
    obtain ⟨d', hstep⟩ := step_afterActions (n := n) hphase hscript d (by omega) (hactions _ (by omega) (by omega))
    exact ⟨d', (run_succ_of_next hrun).trans hstep⟩

/-- The actions from `POS` up to a position `k`, and then the `RunStep` there. -/
theorem run_to {s : State} (hphase : s.phase = .run) (hscript : s.env.script = []) {k : Nat} (hle : s.pos.toNat ≤ k)
    (hk : k ≤ 65535) (hactions : ∀ j, s.pos.toNat ≤ j → j < k → Continues s.mem s.curSeq j) :
    ∃ d, Sys2Proof.core.run (k - s.pos.toNat + 1) s = runStep (afterActions s (k - s.pos.toNat) d) := by
  have hsum : s.pos.toNat + (k - s.pos.toNat) = k := by omega
  obtain ⟨d, hrun⟩ := run_actions (n := k - s.pos.toNat) hphase hscript (by omega) (by rwa [hsum])
  exact ⟨d, (run_succ_of_next hrun).trans (step_of_run _ hphase hscript)⟩

/-! ### How a run ends -/

theorem toNat_pos_afterActions {s : State} {d : Devices} {k : Nat} (hle : s.pos.toNat ≤ k) (hk : k ≤ 65535) :
    (afterActions s (k - s.pos.toNat) d).pos.toNat = k := by
  rw [afterActions, BitVec.toNat_ofNat]
  omega

theorem toNat_pos_after_advance {s : State} {d : Devices} {k : Nat} (hle : s.pos.toNat ≤ k) (hk : k < 65535) :
    (advancePos (afterActions s (k - s.pos.toNat) d)).pos.toNat = k + 1 := by
  have hpos := toNat_pos_afterActions (d := d) hle (Nat.le_of_lt hk)
  have hlt : (afterActions s (k - s.pos.toNat) d).pos.toNat + (1 : Word16).toNat < 2 ^ 16 := by
    rw [hpos]
    exact Nat.succ_lt_succ hk
  exact (BitVec.toNat_add_of_lt hlt).trans (congrArg (· + 1) hpos)

/-- No action but `End` mutes (42_sequence_interpreter.md R93 to R95). -/
theorem countP_isPwmDis_actionTrace (m : Memory) (c : Config) {i : Instr} (h : i ≠ .endAct) :
    (actionTrace m c i).countP Event.isPwmDis = 0 := by
  cases i with
  | endAct => exact absurd rfl h
  | note index =>
    by_cases hindex : index.toNat < 128 <;> simp [actionTrace, hindex, Event.isPwmDis]
  | led p =>
    rw [actionTrace, ← srEvents_eq_srTrain]
    exact countP_srEvents Event.isPwmDis _ p 0 fun _ => rfl
  | _ => rfl

theorem countP_isPwmDis_runTrace (m : Memory) (c : Config) (q : Byte) (start : Nat) {n : Nat}
    (h : ∀ j, start ≤ j → j < start + n → Continues m q j) : (runTrace m c q start n).countP Event.isPwmDis = 0 := by
  induction n with
  | zero => rfl
  | succ n ih =>
    obtain ⟨i, hdecode, hne⟩ := h (start + n) (by omega) (by omega)
    rw [runTrace, hdecode, List.countP_append, ih fun j hj hj' => h j hj (by omega)]
    exact (Nat.zero_add _).trans (countP_isPwmDis_actionTrace m c hne)

/-- Past the end of the sequence every position holds an implicit `End` (20_memory.md R44). -/
theorem decodeAction_wordAt_past_end {m : Memory} {q : Byte} {k : Nat} (h : seqLen m q ≤ k) :
    decodeAction (wordAt m q k) = .ok .endAct := by
  rw [wordAt, List.getD_eq_default _ _ h]
  exact decodeAction_endWord

/-- From every start there is a first position of a kind that some position past the start is of. -/
theorem exists_first {P : Nat → Prop} {start bound : Nat} (hle : start ≤ bound) (hP : P bound) :
    ∃ k, start ≤ k ∧ k ≤ bound ∧ P k ∧ ∀ j, start ≤ j → j < k → ¬P j := by
  classical
  have hex : ∃ k, start ≤ k ∧ P k := ⟨bound, hle, hP⟩
  obtain ⟨hstart, hk⟩ := Nat.find_spec hex
  exact ⟨Nat.find hex, hstart, Nat.find_min' hex ⟨hle, hP⟩, hk, fun j hj hlt hPj => Nat.find_min hex hlt ⟨hj, hPj⟩⟩

/-- Settles O33: the first `End` is at most the implicit one; the run performs the actions before it and then `End`
itself, which mutes and reports. -/
theorem runPerformsItsActions : Obligations.RunPerformsItsActions := by
  refine ⟨fun m q start => ?_, fun s k hphase hscript hends => ?_⟩
  · exact exists_first (Nat.le_max_left _ _) (decodeAction_wordAt_past_end (Nat.le_max_right _ _))
  · obtain ⟨hle, hbelow, hend, hbefore⟩ := hends
    have hsum : s.pos.toNat + (k - s.pos.toNat) = k := Nat.add_sub_cancel' hle
    obtain ⟨d, hrun⟩ := run_to hphase hscript hle (Nat.le_of_lt hbelow) hbefore
    have hfetch := fetchWord_afterActions s d (n := k - s.pos.toNat) (by omega)
    rw [hsum] at hfetch
    rw [runStep_of_action _ .endAct (afterActions_pos_ne_top (by omega)) (hfetch ▸ hend)] at hrun
    exact ⟨_, hrun, rfl, countP_isPwmDis_runTrace _ _ _ _ (by rwa [hsum]), rfl, toNat_pos_after_advance hle hbelow,
      rfl, rfl, rfl, rfl, rfl⟩

/-- Settles O34: the run performs the actions before the illegal word and then faults at it, after the advance. -/
theorem runFaultsAtAnIllegalWord : Obligations.RunFaultsAtAnIllegalWord := by
  intro s k hphase hscript hbreaks
  obtain ⟨hle, hbelow, ⟨x, hillegal⟩, hbefore⟩ := hbreaks
  have hsum : s.pos.toNat + (k - s.pos.toNat) = k := Nat.add_sub_cancel' hle
  obtain ⟨d, hrun⟩ := run_to hphase hscript hle (Nat.le_of_lt hbelow) hbefore
  have hfetch := fetchWord_afterActions s d (n := k - s.pos.toNat) (by omega)
  rw [hsum] at hfetch
  rw [runStep_of_illegal _ x (afterActions_pos_ne_top (by omega)) (hfetch ▸ hillegal)] at hrun
  refine ⟨_, hrun, rfl, rfl, ?_, toNat_pos_after_advance hle hbelow, rfl, rfl⟩
  simp [fetchSite, afterActions, hsum]

/-- The top position is reached after the actions below it. -/
theorem afterActions_pos_top (s : State) (d : Devices) : (afterActions s (65535 - s.pos.toNat) d).pos = topPos :=
  BitVec.eq_of_toNat_eq (toNat_pos_afterActions (by have := s.pos.isLt; omega) (Nat.le_refl _))

/-- Settles O35: the run performs the actions below the top and then faults there, before `POS` changes. -/
theorem runOverflowsAtTheTop : Obligations.RunOverflowsAtTheTop := by
  intro s hphase hscript hactions
  obtain ⟨d, hrun⟩ := run_to hphase hscript (Nat.le_of_lt_succ s.pos.isLt) (Nat.le_refl 65535) hactions
  have htop := afterActions_pos_top s d
  rw [runStep_of_top htop] at hrun
  refine ⟨_, hrun, rfl, rfl, ?_, htop, rfl, rfl⟩
  rw [raiseFault_faultReason, fetchSite, htop]
  rfl

/-- A position of a run that is the top one, or holds no action that continues the run. -/
def Stops (m : Memory) (q : Byte) (k : Nat) : Prop := k = 65535 ∨ ¬Continues m q k

/-- A `RunStep` at a position that stops the run leaves `RUN`. -/
theorem runStep_of_stops {s : State} (h : Stops s.mem s.curSeq s.pos.toNat) :
    ∃ t, runStep s = .next t ∧ t.phase ≠ .run := by
  by_cases hpos : s.pos = topPos
  · exact ⟨_, runStep_of_top hpos, nofun⟩
  · cases hdecode : decodeAction (fetchWord s) with
    | error x => exact ⟨_, runStep_of_illegal s x hpos hdecode, nofun⟩
    | ok i =>
      have hend : i = .endAct := by
        by_contra hne
        exact h.elim (fun htop => hpos (BitVec.eq_of_toNat_eq htop)) fun hstop => hstop ⟨i, hdecode, hne⟩
      subst hend
      exact ⟨_, runStep_of_action s .endAct hpos hdecode, nofun⟩

/-- Settles O36: some position at most `max(start, len)` stops the run: the top one, or the implicit `End`; the run
performs the actions before the first such position and then leaves `RUN` there. -/
theorem everyRunEnds : Obligations.EveryRunEnds := by
  intro s hphase hscript
  have hstart : s.pos.toNat ≤ 65535 := Nat.le_of_lt_succ s.pos.isLt
  have hstops : Stops s.mem s.curSeq (min (max s.pos.toNat (seqLen s.mem s.curSeq)) 65535) := by
    obtain hlen | hlen := Nat.le_total 65535 (max s.pos.toNat (seqLen s.mem s.curSeq))
    · exact .inl (Nat.min_eq_right hlen)
    · rw [Nat.min_eq_left hlen]
      refine .inr ?_
      rintro ⟨i, hdecode, hne⟩
      rw [decodeAction_wordAt_past_end (Nat.le_max_right _ _)] at hdecode
      cases hdecode
      exact hne rfl
  obtain ⟨k, hle, hbound, hstop, hbefore⟩ := exists_first (le_min (Nat.le_max_left _ _) hstart) hstops
  have hk : k ≤ 65535 := hbound.trans (Nat.min_le_right _ _)
  have hactions : ∀ j, s.pos.toNat ≤ j → j < k → Continues s.mem s.curSeq j := fun j hj hlt =>
    not_not.mp fun hcont => hbefore j hj hlt (.inr hcont)
  obtain ⟨d, hrun⟩ := run_to hphase hscript hle hk hactions
  obtain ⟨t, hstep, ht⟩ := runStep_of_stops (s := afterActions s (k - s.pos.toNat) d)
    ((toNat_pos_afterActions (d := d) hle hk).symm ▸ hstop)
  exact ⟨k - s.pos.toNat + 1, t, by omega, hrun.trans hstep, ht⟩

end Sys2Proof.Machine

/-! SUPPORT. The host port (10_state.md R21 to R31, 45_host_commands.md R124, R135): accesses by slot and by number, the
order of the checks of a write to `CMD`, reset and the power cycle, and what a step can still change in `FAULT`
(60_exceptions.md R140). -/

namespace Sys2Proof.Machine

/-! ### Writes to `CMD` -/

theorem hostWriteCmd_of_fault {c : Word16} {s : State} (h : s.phase = .fault) : hostWriteCmd c s = .next s :=
  if_pos h

theorem hostWriteCmd_of_busy {c : Word16} {s : State} (hphase : s.phase ≠ .fault) (hbusy : s.status.busy = true) :
    hostWriteCmd c s = .next (raiseFault .cmdWhileBusy none s) := by
  rw [hostWriteCmd, if_neg hphase, if_pos hbusy]

theorem hostWriteCmd_of_illegal {c : Word16} {s : State} (hphase : s.phase ≠ .fault) (hbusy : s.status.busy = false)
    (hc : c.toNat = 0 ∨ 8 ≤ c.toNat) : hostWriteCmd c s = .next (raiseFault .illegalCmd none s) := by
  obtain ⟨x, hx⟩ := (decodeCommand_error_iff c).mpr hc
  simp [hostWriteCmd, hphase, hbusy, hx]

theorem hostWriteCmd_of_command {c : Word16} {i : Instr} {s : State} (hphase : s.phase ≠ .fault)
    (hbusy : s.status.busy = false) (hc : decodeCommand c = .ok i) : hostWriteCmd c s = exec i (accept s) := by
  simp [hostWriteCmd, hphase, hbusy, hc]

/-- Settles O4: the decoder's seven codes and its refusals; the command port of an idle block raises `ILLEGAL_CMD` for
what the decoder refuses. -/
theorem commandCodes : Obligations.CommandCodes :=
  ⟨rfl, rfl, rfl, rfl, rfl, rfl, rfl, decodeCommand_error_iff, fun _ _ => hostWriteCmd_of_illegal⟩

/-- Settles O9: the four outcomes of a write to `CMD`, in the order of its checks. -/
theorem commandWriteRunsTheCommand : Obligations.CommandWriteRunsTheCommand := by
  intro s u c rest hscript hu
  have hstep : step s = hostWriteCmd c u := hu ▸ turn_cons s (.write .cmd c) rest hscript nofun
  rw [hstep]
  subst hu
  exact ⟨fun hphase => hostWriteCmd_of_fault hphase, fun hphase hbusy => hostWriteCmd_of_busy hphase hbusy,
    fun hphase hbusy hc => hostWriteCmd_of_illegal hphase hbusy (by omega),
    fun i hphase hbusy hc => hostWriteCmd_of_command hphase hbusy hc⟩

/-! ### The other slots -/

/-- Host writes of every slot but `CMD`, `ARG0` and `ARG1` are ignored (45_host_commands.md R135). -/
theorem hostWrite_of_ignored {slot : Slot} (h : slot ≠ .cmd ∧ slot ≠ .arg0 ∧ slot ≠ .arg1) (v : Word16) (s : State) :
    hostWrite slot v s = .next s := by
  obtain ⟨hcmd, harg0, harg1⟩ := h
  cases slot with
  | cmd => exact absurd rfl hcmd
  | arg0 => exact absurd rfl harg0
  | arg1 => exact absurd rfl harg1
  | _ => rfl

/-- A step at a host write of a slot. -/
theorem step_of_write {s : State} {slot : Slot} {v : Word16} {rest : List HostInput}
    (h : s.env.script = .write slot v :: rest) : step s = hostWrite slot v (withScript rest s) :=
  turn_cons s (.write slot v) rest h nofun

/-- A step at a host read of a slot moves only the environment, and returns what the slot gives. -/
theorem step_of_read {s : State} {slot : Slot} {rest : List HostInput} (h : s.env.script = .read slot :: rest) :
    ∃ v n, step s = .next { s with
        env := { s.env with script := rest, fresh := n, readLog := s.env.readLog ++ [(slot, v)] } } ∧
      ReadGives slot s v := by
  obtain ⟨v, n, hread, hv⟩ := hostRead_eq slot (withScript rest s)
  have hstep : step s = .next (hostRead slot (withScript rest s)) := turn_cons s (.read slot) rest h nofun
  exact ⟨v, n, hstep.trans (congrArg Host.Outcome.next hread), hv.arg0, hv.arg1, hv.result, hv.status, hv.prng⟩

/-- Settles O25: a read by what its slot gives, a write by its slot. -/
theorem hostAccessesOfTheSlots : Obligations.HostAccessesOfTheSlots := by
  refine ⟨fun s slot rest h => ?_, fun s v rest slot h => ?_⟩
  · obtain ⟨v, n, hstep, hv⟩ := step_of_read h
    exact ⟨v, n, hstep, hv.arg0, hv.arg1, hv.result, hv.status, hv.prng⟩
  · rw [step_of_write h]
    refine ⟨?_, ?_, fun hslot => ?_⟩
    · rintro rfl
      rfl
    · rintro rfl
      rfl
    · refine hostWrite_of_ignored ?_ v _
      obtain rfl | rfl | rfl | rfl | rfl := hslot <;> decide

/-! ### The slot numbers -/

theorem number_ofNumber : ∀ n, (Slot.ofNumber n).number = n := by decide

theorem ofNumber_number (x : Slot) : Slot.ofNumber x.number = x := by
  cases x <;> rfl

/-- The slots from number 3 on are none of the three that a write reaches. -/
theorem ofNumber_ignored : ∀ n : BitVec 3, 3 ≤ n.toNat →
    Slot.ofNumber n ≠ .cmd ∧ Slot.ofNumber n ≠ .arg0 ∧ Slot.ofNumber n ≠ .arg1 := by
  decide

/-- Settles O26: the numbers are checked one by one, and an access by number is one of the slot of that number. -/
theorem slotNumbersFollowTheTable : Obligations.SlotNumbersFollowTheTable := by
  refine ⟨rfl, number_ofNumber, ofNumber_number, fun s u n v rest h hu => ?_, fun s n rest h => ?_⟩
  · have hstep : step s = hostWrite (Slot.ofNumber n) v u := hu ▸ step_of_write h
    rw [hstep]
    refine ⟨?_, ?_, ?_, fun hn => hostWrite_of_ignored (ofNumber_ignored n hn) v u⟩ <;>
    · rintro rfl
      rfl
  · obtain ⟨v, k, hstep, hv⟩ := step_of_read h
    refine ⟨v, k, hstep, ?_, ?_, ?_, ?_, ?_⟩
    · rintro rfl
      exact hv.arg0 rfl
    · rintro rfl
      exact hv.arg1 rfl
    · rintro rfl
      exact hv.result rfl
    · rintro rfl
      exact hv.status rfl
    · rintro rfl
      exact hv.prng rfl

/-! ### `STATUS` -/

/-- Each bit of `STATUS` (10_state.md R26). -/
theorem getLsbD_statusWord (s : State) (i : Nat) : (statusWord s).getLsbD i =
    if i = 0 then s.status.busy else if i = 1 then s.status.fault else if i = 2 then s.status.valid
    else if i = 3 then s.seeded else if i < 8 then false else s.status.cause.code.getLsbD (i - 8) := by
  unfold statusWord
  change BitVec.getLsbD (w := 4 + 4 + 4 + 1 + 1 + 1 + 1) _ i = _
  simp only [BitVec.getLsbD_append, BitVec.getLsbD_ofBool, BitVec.getLsbD_zero]
  match i with
  | 0 | 1 | 2 | 3 | 4 | 5 | 6 | 7 => simp
  | i + 8 =>
    by_cases hi : i < 4
    · simp [hi]
    · simp [hi, BitVec.getLsbD_of_ge _ _ (Nat.not_lt.mp hi)]

/-- The bits from 8 on are those of the cause code, the upper four of them 0. -/
theorem getLsbD_statusWord_add_eight (s : State) (i : Nat) :
    (statusWord s).getLsbD (8 + i) = s.status.cause.code.getLsbD i := by
  rw [getLsbD_statusWord, Nat.add_comm]
  simp

/-- Settles O24: each field is read off the word bit by bit. -/
theorem statusWordLayout : Obligations.StatusWordLayout := by
  refine ⟨fun s => ⟨getLsbD_statusWord s 0, getLsbD_statusWord s 1, getLsbD_statusWord s 2, getLsbD_statusWord s 3,
    ?_, ?_, ?_⟩, rfl⟩ <;> ext i hi <;> rw [BitVec.getElem_extractLsb']
  · rw [getLsbD_statusWord, if_neg (by omega), if_neg (by omega), if_neg (by omega), if_neg (by omega),
      if_pos (by omega)]
    simp
  · rw [getLsbD_statusWord_add_eight, BitVec.getLsbD_eq_getElem]
  · have hsum : 12 + i = 8 + (4 + i) := by omega
    rw [hsum, getLsbD_statusWord_add_eight]
    simp

/-! ### Reset and the power cycle -/

theorem statusWord_of_reset {s : State} (hstatus : s.status = Status.reset) (hseeded : s.seeded = false) :
    statusWord s = 0x0000 := by
  rw [statusWord, hstatus, hseeded]
  rfl

/-- Settles O27: the step is `powerCycle`, which writes the reset values. -/
theorem powerCycleResets : Obligations.PowerCycleResets := by
  intro s rest h
  have hstep : step s = .next (powerCycle (withScript rest s)) := turn_cons s .powerCycle rest h nofun
  exact ⟨_, hstep, rfl, statusWord_of_reset rfl rfl, rfl, rfl, rfl, rfl, rfl, rfl, rfl, rfl, rfl, rfl⟩

/-- Settles O28: the reset values, and the unseeded arms of what reads `PRNG`. -/
theorem resetValues : Obligations.ResetValues :=
  ⟨rfl, statusWord_of_reset rfl rfl, rfl, rfl, rfl, rfl, rfl, fun l => by cases l <;> rfl, rfl, rfl, rfl, rfl, rfl,
    execPrngAdvance_of_unseeded rfl, execPrngUpdate_of_unseeded rfl, fun n => walkFrom_of_unseeded n rfl, rfl⟩

/-! ### A step in `FAULT` -/

/-- `t` differs from `s` at most in what the host itself acts on, by its next access `head` (60_exceptions.md R140). -/
structure HostOnly (head : Option HostInput) (s t : State) : Prop where
  others : t = { s with arg0 := t.arg0, arg1 := t.arg1, dev := t.dev, env := t.env }
  arg0 : t.arg0 = s.arg0 ∨ head = some (.write .arg0 t.arg0)
  arg1 : t.arg1 = s.arg1 ∨ head = some (.write .arg1 t.arg1)
  dev : t.dev = s.dev ∨ ∃ l, head = some (.driveLow l) ∧ t.dev = s.dev.driveLow l
  driven : ∀ l, head = some (.driveLow l) → t.dev = s.dev.driveLow l
  adcIn : t.env.adcIn = s.env.adcIn
  bootIn : t.env.bootIn = s.env.bootIn
  readLog : t.env.readLog = s.env.readLog ∨
    ∃ slot v, head = some (.read slot) ∧ t.env.readLog = s.env.readLog ++ [(slot, v)]

/-- Nothing but the script has moved, and the access drives no line. -/
theorem HostOnly.of_script {head : Option HostInput} (h : ∀ l, head ≠ some (.driveLow l)) (s : State)
    (script : List HostInput) : HostOnly head s (withScript script s) where
  others := rfl
  arg0 := .inl rfl
  arg1 := .inl rfl
  dev := .inl rfl
  driven l hl := absurd hl (h l)
  adcIn := rfl
  bootIn := rfl
  readLog := .inl rfl

/-- In `FAULT` the block executes no step. -/
theorem BlockMoves.eq_of_fault {s t : State} (h : BlockMoves s t) (hs : s.phase = .fault) : t = s := by
  cases h with
  | rests => rfl
  | overflows hrun | refuses hrun | acts hrun => cases hs.symm.trans hrun

theorem Serves.hostOnly_of_fault {i : HostInput} {rest : List HostInput} {s t : State}
    (h : Serves (withScript rest s) i t) (hs : s.phase = .fault) (hi : i ≠ .powerCycle) : HostOnly (some i) s t := by
  cases h with
  | commandIgnored | ignored | await => exact .of_script (by nofun) s rest
  | commandFaults _ hphase => exact absurd hs hphase
  | command hphase => exact absurd hs hphase
  | arg0 v => exact ⟨rfl, .inr rfl, .inl rfl, .inl rfl, nofun, rfl, rfl, .inl rfl⟩
  | arg1 v => exact ⟨rfl, .inl rfl, .inr rfl, .inl rfl, nofun, rfl, rfl, .inl rfl⟩
  | read slot =>
    obtain ⟨v, n, hread, -⟩ := hostRead_eq slot (withScript rest s)
    rw [hread]
    exact ⟨rfl, .inl rfl, .inl rfl, .inl rfl, nofun, rfl, rfl, .inr ⟨slot, v, rfl, rfl⟩⟩
  | grant hblock =>
    rw [hblock.eq_of_fault hs]
    exact .of_script (by nofun) s rest
  | driveLow l =>
    refine ⟨rfl, .inl rfl, .inl rfl, .inr ⟨l, rfl, rfl⟩, fun m hm => ?_, rfl, rfl, .inl rfl⟩
    cases hm
    rfl
  | powerCycle => exact absurd rfl hi

theorem Moves.hostOnly_of_fault {s t : State} (h : Moves s t) (hs : s.phase = .fault)
    (hcycle : s.env.script.head? ≠ some .powerCycle) : HostOnly s.env.script.head? s t := by
  cases h with
  | block hscript h =>
    rw [h.eq_of_fault hs]
    refine .of_script (fun l hl => ?_) s s.env.script
    obtain hnil | hawait := hscript
    · rw [hnil] at hl
      cases hl
    · cases hawait.symm.trans hl
  | @served i rest t hscript h =>
    rw [hscript] at hcycle ⊢
    exact h.hostOnly_of_fault hs fun hi => hcycle (congrArg some hi)

/-- A boot drive moves only its own line, from unknown to low; the register and the PWM source stay (log 13). -/
theorem HostOnly.devices {head : Option HostInput} {s t : State} (h : HostOnly head s t) :
    t.dev.shift = s.dev.shift ∧ t.dev.out = s.dev.out ∧ t.dev.pwmFreq = s.dev.pwmFreq ∧
      t.dev.pwmDuty = s.dev.pwmDuty ∧ t.dev.pwmEn = s.dev.pwmEn := by
  obtain hdev | ⟨l, -, hdev⟩ := h.dev
  · simp only [hdev, and_self]
  · obtain ⟨hshift, hout⟩ := driveLow_register l s.dev
    rw [hdev]
    exact ⟨hshift, hout, driveLow_pwm s.dev l⟩

theorem HostOnly.levels {l : Line} {s t : State} (h : HostOnly (some (.driveLow l)) s t) :
    t.dev.level l = (if s.dev.level l = .unknown then .low else s.dev.level l) ∧
      ∀ m, m ≠ l → t.dev.level m = s.dev.level m := by
  rw [h.driven l rfl]
  refine ⟨by simp [level_driveLow], fun m hm => by simp [level_driveLow, hm]⟩

/-- Settles O29: in `FAULT` the cases of a step leave only what the host acts on. -/
theorem faultIsTerminal : Obligations.FaultIsTerminal := by
  refine ⟨fun s c rest hs h => ?_, fun s rest _ h => turn_cons s (.read .status) rest h nofun,
    fun s rest _ h => ⟨_, turn_cons s .powerCycle rest h nofun, rfl⟩, fun s t hs hcycle hstep => ?_⟩
  · exact (step_of_write h).trans (hostWriteCmd_of_fault hs)
  · have hframe := (moves_of_step hstep).hostOnly_of_fault hs hcycle
    exact ⟨hframe.others, hframe.arg0, hframe.arg1, hframe.dev.imp id fun ⟨l, hl, _⟩ => ⟨l, hl⟩,
      fun l hl => (hl ▸ hframe).levels, hframe.adcIn, hframe.bootIn, hframe.readLog, hframe.devices⟩

end Sys2Proof.Machine

/-! SUPPORT. Values that no step can tell: `PRNG` while unseeded (10_state.md R15), `POS` and `CUR_SEQ` outside a run
(10_state.md R18, R19). A register is varied over all its values, and a step carries the variation on or writes over
it. -/

namespace Sys2Proof.Machine

/-! ### Variations -/

section
variable {α : Type} {vary : α → State → State} {P : State → Prop}

/-- From `s`, under every variation, `f` leads to the variations of one state, where `P` holds, or to one state. -/
def Blind (vary : α → State → State) (P : State → Prop) (f : State → Host.Outcome State Fault Refusal) (s : State) :
    Prop :=
  (∃ t, P t ∧ ∀ a, f (vary a s) = .next (vary a t)) ∨ ∃ t, ∀ a, f (vary a s) = .next t

/-- A step from `s` that is, under every variation, the step `f` from `u` is as blind as `f`. -/
theorem Blind.of_eq {f g : State → Host.Outcome State Fault Refusal} {s u : State} (hf : Blind vary P f u)
    (hg : ∀ a, g (vary a s) = f (vary a u)) : Blind vary P g s := by
  obtain ⟨t, ht, hnext⟩ | ⟨t, hnext⟩ := hf
  · exact .inl ⟨t, ht, fun a => (hg a).trans (hnext a)⟩
  · exact .inr ⟨t, fun a => (hg a).trans (hnext a)⟩

/-- The variation touches no register that decides which access is served and how a write to `CMD` is checked. -/
structure Hidden (vary : α → State → State) : Prop where
  env : ∀ a s, (vary a s).env = s.env
  phase : ∀ a s, (vary a s).phase = s.phase
  status : ∀ a s, (vary a s).status = s.status
  withScript : ∀ a script s, withScript script (vary a s) = vary a (withScript script s)
  accept : ∀ a s, accept (vary a s) = vary a (accept s)
  raiseFault : ∀ a c x s, raiseFault c x (vary a s) = vary a (raiseFault c x s)

/-- A write to `CMD` is blind if the commands are, where `P` allows ignoring it and raising its own two faults. -/
theorem Blind.hostWriteCmd (hvary : Hidden vary) {s : State} (c : Word16) (hs : P s)
    (hraise : ∀ x, P (Machine.raiseFault x none s))
    (hexec : ∀ i, i.format = .cmd → Blind vary P (exec i) (Machine.accept s)) :
    Blind vary P (Machine.hostWriteCmd c) s := by
  by_cases hphase : s.phase = .fault
  · exact .inl ⟨s, hs, fun a => hostWriteCmd_of_fault ((hvary.phase a s).trans hphase)⟩
  · have hphase' (a : α) : (vary a s).phase ≠ .fault := ne_of_eq_of_ne (hvary.phase a s) hphase
    have hbusy' (a : α) : (vary a s).status.busy = s.status.busy := congrArg Status.busy (hvary.status a s)
    cases hbusy : s.status.busy with
    | true =>
      exact .inl ⟨_, hraise .cmdWhileBusy, fun a =>
        (hostWriteCmd_of_busy (hphase' a) ((hbusy' a).trans hbusy)).trans (congrArg _ (hvary.raiseFault a _ _ s))⟩
    | false =>
      cases hdecode : decodeCommand c with
      | error x =>
        have hillegal := (decodeCommand_error_iff c).mp ⟨x, hdecode⟩
        exact .inl ⟨_, hraise .illegalCmd, fun a =>
          (hostWriteCmd_of_illegal (hphase' a) ((hbusy' a).trans hbusy) hillegal).trans
            (congrArg _ (hvary.raiseFault a _ _ s))⟩
      | ok i =>
        have hcmd := format_of_encode_command (encode_of_decodeCommand hdecode)
        exact (hexec i hcmd).of_eq fun a =>
          (hostWriteCmd_of_command (hphase' a) ((hbusy' a).trans hbusy) hdecode).trans
            (congrArg (exec i) (hvary.accept a s))

/-- A turn is blind if the block's step and every access are. -/
theorem Blind.step (hvary : Hidden vary) {s : State} (hblock : Blind vary P blockStep s)
    (hserve : ∀ i rest, Blind vary P (serve i) (Machine.withScript rest s)) : Blind vary P step s := by
  rcases hscript : s.env.script with - | ⟨i, rest⟩
  · exact hblock.of_eq fun a => turn_nil _ ((congrArg Env.script (hvary.env a s)).trans hscript)
  · have hvaried (a : α) : (vary a s).env.script = i :: rest :=
      (congrArg Env.script (hvary.env a s)).trans hscript
    have hserved (a : α) :
        serve i (Machine.withScript rest (vary a s)) = serve i (vary a (Machine.withScript rest s)) :=
      congrArg (serve i) (hvary.withScript a rest s)
    have hbusy' (a : α) : (vary a s).status.busy = s.status.busy := congrArg Status.busy (hvary.status a s)
    by_cases hi : i = .await
    · subst hi
      cases hbusy : s.status.busy with
      | true =>
        exact hblock.of_eq fun a => turn_await_busy _ rest (hvaried a) ((hbusy' a).trans hbusy)
      | false =>
        exact (hserve .await rest).of_eq fun a =>
          (turn_await_ready _ rest (hvaried a) ((hbusy' a).trans hbusy)).trans (hserved a)
    · exact (hserve i rest).of_eq fun a => (turn_cons _ i rest (hvaried a) hi).trans (hserved a)

end

/-! ### `PRNG` while unseeded -/

/-- `s` with the value `v` in `PRNG`. -/
def withPrng (v : Word16) (s : State) : State := { s with prng := v }

theorem hidden_withPrng : Hidden withPrng where
  env _ _ := rfl
  phase _ _ := rfl
  status _ _ := rfl
  withScript _ _ _ := rfl
  accept _ _ := rfl
  raiseFault _ _ _ _ := rfl

/-- `f` cannot tell the `PRNG` of `s`, which it leaves unseeded, or writes over. -/
abbrev PrngBlind : (State → Host.Outcome State Fault Refusal) → State → Prop :=
  Blind withPrng fun t => t.seeded = false

theorem prngBlind_execNote (index : Byte) {s : State} (h : s.seeded = false) : PrngBlind (execNote index) s := by
  by_cases hindex : index.toNat < 128
  · exact .inl ⟨toneProgram (s.mem.freqTable[index.toNat]'hindex) s, h, fun _ => execNote_of_inside index _ hindex⟩
  · exact .inl ⟨s, h, fun _ => execNote_of_outside index _ (Nat.not_lt.mp hindex)⟩

theorem prngBlind_execRun {s : State} (h : s.seeded = false) : PrngBlind execRun s := by
  obtain hseq | hseq := Nat.lt_or_ge (seqOperand s).toNat (numSeq s.mem)
  · exact .inl ⟨runStart (seqOperand s) (startOperand s) s, h, fun a => execRun_of_present (withPrng a s) hseq⟩
  · exact .inl ⟨raiseFault .badSeq none s, h, fun a => execRun_of_absent (withPrng a s) hseq⟩

theorem prngBlind_execToneLookup {s : State} (h : s.seeded = false) : PrngBlind execToneLookup s := by
  by_cases hindex : (byteOperand s).toNat < 128
  · exact .inl ⟨completeWith (s.mem.freqTable[(byteOperand s).toNat]'hindex) s, h,
      fun a => execToneLookup_of_inside (withPrng a s) hindex⟩
  · exact .inl ⟨completeVoid s, h, fun a => execToneLookup_of_outside (withPrng a s) (Nat.not_lt.mp hindex)⟩

/-- Unseeded, `NEXT_ID` faults before it reads `PRNG` (43_random_walk.md R109). -/
theorem prngBlind_execNextId {s : State} (h : s.seeded = false) : PrngBlind execNextId s := by
  cases hfound : findNode s.mem.graph (byteOperand s) with
  | none =>
    refine .inl ⟨completeWith (zext16 (byteOperand s)) s, h, fun a => ?_⟩
    have hvaried : findNode (withPrng a s).mem.graph (byteOperand (withPrng a s)) = none := hfound
    rw [execNextId, hvaried]
    rfl
  | some n =>
    exact .inl ⟨raiseFault .prngUninit none s, h, fun a =>
      (execNextId_of_found (s := withPrng a s) hfound).trans (walkFrom_of_unseeded n h)⟩

theorem prngBlind_exec (i : Instr) {s : State} (h : s.seeded = false) : PrngBlind (exec i) s := by
  cases i with
  | endAct => exact .inl ⟨finishRun (toneMute s), h, fun _ => rfl⟩
  | wait d => exact .inl ⟨emit [.delayMs (zext32 d)] s, h, fun _ => rfl⟩
  | note index => exact prngBlind_execNote index h
  | led p => exact .inl ⟨srUpdate p s, h, fun _ => rfl⟩
  | run => exact prngBlind_execRun h
  | srUpdate => exact .inl ⟨completeVoid (srUpdate (byteOperand s) s), h, fun _ => rfl⟩
  | toneLookup => exact prngBlind_execToneLookup h
  | nextId => exact prngBlind_execNextId h
  | prngInit =>
    obtain ⟨ws, a1, a2, a3, e, -, hexec⟩ := execPrngInit_of_unseeded s.env
    exact .inr ⟨reportPrng { emit (initEvents ws a1 a2 a3) s with
      prng := initialised ws a1 a2 a3, seeded := true, env := e }, fun a => hexec (withPrng a s) rfl h⟩
  | prngAdvance => exact .inl ⟨raiseFault .prngUninit none s, h, fun a => execPrngAdvance_of_unseeded h⟩
  | prngUpdate => exact .inl ⟨raiseFault .prngUninit none s, h, fun a => execPrngUpdate_of_unseeded h⟩

theorem prngBlind_runStep {s : State} (h : s.seeded = false) : PrngBlind runStep s := by
  by_cases hpos : s.pos = topPos
  · exact .inl ⟨raiseFault .indexOverflow (some (fetchSite s)) s, h, fun a => runStep_of_top (s := withPrng a s) hpos⟩
  · cases hdecode : decodeAction (fetchWord s) with
    | ok i =>
      exact (prngBlind_exec i (s := advancePos s) h).of_eq fun a => runStep_of_action (withPrng a s) i hpos hdecode
    | error x =>
      exact .inl ⟨raiseFault .illegalAction (some (fetchSite s)) (advancePos s), h, fun a =>
        runStep_of_illegal (withPrng a s) x hpos hdecode⟩

theorem prngBlind_blockStep {s : State} (h : s.seeded = false) : PrngBlind blockStep s := by
  by_cases hphase : s.phase = .run
  · exact (prngBlind_runStep h).of_eq fun a => blockStep_of_run (s := withPrng a s) hphase
  · exact .inl ⟨s, h, fun a => blockStep_of_ne_run (s := withPrng a s) hphase⟩

/-- Unseeded, a host read of `PRNG` returns any value (10_state.md R30). -/
theorem hostRead_withPrng (slot : Slot) {s : State} (h : s.seeded = false) (v : Word16) :
    hostRead slot (withPrng v s) = withPrng v (hostRead slot s) := by
  cases slot with
  | prng => simp [hostRead, readSlot, withPrng, anyRead, h]
  | _ => rfl

theorem hostRead_seeded (slot : Slot) (s : State) : (hostRead slot s).seeded = s.seeded := by
  obtain ⟨v, n, hread, -⟩ := hostRead_eq slot s
  rw [hread]

theorem prngBlind_serve (i : HostInput) {s : State} (h : s.seeded = false) : PrngBlind (serve i) s := by
  cases i with
  | write slot v =>
    cases slot with
    | cmd => exact Blind.hostWriteCmd hidden_withPrng v h (fun _ => h) fun i _ => prngBlind_exec i h
    | arg0 => exact .inl ⟨{ s with arg0 := v }, h, fun _ => rfl⟩
    | arg1 => exact .inl ⟨{ s with arg1 := v }, h, fun _ => rfl⟩
    | _ => exact .inl ⟨s, h, fun _ => rfl⟩
  | read slot =>
    exact .inl ⟨hostRead slot s, (hostRead_seeded slot s).trans h, fun a =>
      congrArg Host.Outcome.next (hostRead_withPrng slot h a)⟩
  | grant => exact prngBlind_blockStep h
  | await => exact .inl ⟨s, h, fun _ => rfl⟩
  | driveLow l => exact .inl ⟨{ s with dev := s.dev.driveLow l }, h, fun _ => rfl⟩
  | powerCycle => exact .inr ⟨powerCycle s, fun _ => rfl⟩

theorem prngBlind_step {s : State} (h : s.seeded = false) : PrngBlind step s :=
  Blind.step hidden_withPrng (prngBlind_blockStep h) fun i _ => prngBlind_serve i h

/-- Settles O41: every step from an unseeded state is blind to `PRNG`, whose own value is one of those compared. -/
theorem unseededPrngIsUnobservable : Obligations.UnseededPrngIsUnobservable := by
  intro s v h
  obtain ⟨t, ht, hstep⟩ | ⟨t, hstep⟩ := prngBlind_step h
  · exact ⟨withPrng s.prng t, withPrng v t, hstep s.prng, hstep v, rfl, fun hseeded => nomatch ht.symm.trans hseeded⟩
  · exact ⟨t, t, hstep s.prng, hstep v, rfl, fun _ => rfl⟩

/-! ### `POS` and `CUR_SEQ` outside a run -/

/-- `s` with another position and sequence id. -/
def withPlace (x : Word16 × Byte) (s : State) : State := { s with pos := x.1, curSeq := x.2 }

theorem hidden_withPlace : Hidden withPlace where
  env _ _ := rfl
  phase _ _ := rfl
  status _ _ := rfl
  withScript _ _ _ := rfl
  accept _ _ := rfl
  raiseFault _ _ _ _ := rfl

/-- `f` cannot tell the position and the sequence id of `s`, which it leaves outside a run, or writes over. -/
abbrev PlaceBlind : (State → Host.Outcome State Fault Refusal) → State → Prop :=
  Blind withPlace fun t => t.phase ≠ .run

/-- `RUN` writes both registers where it starts a run (42_sequence_interpreter.md R89). -/
theorem placeBlind_execRun (s : State) : PlaceBlind execRun s := by
  obtain hseq | hseq := Nat.lt_or_ge (seqOperand s).toNat (numSeq s.mem)
  · exact .inr ⟨runStart (seqOperand s) (startOperand s) s, fun a => execRun_of_present (withPlace a s) hseq⟩
  · exact .inl ⟨raiseFault .badSeq none s, nofun, fun a => execRun_of_absent (withPlace a s) hseq⟩

theorem placeBlind_execToneLookup {s : State} (h : s.phase ≠ .run) : PlaceBlind execToneLookup s := by
  by_cases hindex : (byteOperand s).toNat < 128
  · exact .inl ⟨completeWith (s.mem.freqTable[(byteOperand s).toNat]'hindex) s, h,
      fun a => execToneLookup_of_inside (withPlace a s) hindex⟩
  · exact .inl ⟨completeVoid s, h, fun a => execToneLookup_of_outside (withPlace a s) (Nat.not_lt.mp hindex)⟩

theorem placeBlind_walkFrom (n : Node) {s : State} (h : s.phase ≠ .run) : PlaceBlind (walkFrom n) s := by
  cases hseeded : s.seeded with
  | false => exact .inl ⟨raiseFault .prngUninit none s, nofun, fun a => walkFrom_of_unseeded n hseeded⟩
  | true =>
    obtain htotal | htotal := Nat.eq_zero_or_pos (totalWeight n.edges)
    · exact .inl ⟨raiseFault .zeroTotal none { s with prng := tripleMix s.prng }, nofun, fun a =>
        walkFrom_of_zero_total (s := withPlace a s) hseeded htotal⟩
    · obtain ⟨lower, e, upper, hedges, hlower, hupper⟩ :=
        exists_enclosing_edge (Nat.mod_lt (tripleMix s.prng).toNat htotal)
      exact .inl ⟨completeWith (zext16 e.target) { s with prng := tripleMix s.prng }, h, fun a =>
        walkFrom_of_enclosing (s := withPlace a s) hseeded hedges hlower hupper⟩

theorem placeBlind_execNextId {s : State} (h : s.phase ≠ .run) : PlaceBlind execNextId s := by
  cases hfound : findNode s.mem.graph (byteOperand s) with
  | none =>
    refine .inl ⟨completeWith (zext16 (byteOperand s)) s, h, fun a => ?_⟩
    have hvaried : findNode (withPlace a s).mem.graph (byteOperand (withPlace a s)) = none := hfound
    rw [execNextId, hvaried]
    rfl
  | some n => exact (placeBlind_walkFrom n h).of_eq fun a => execNextId_of_found (s := withPlace a s) hfound

theorem placeBlind_execPrngInit {s : State} (h : s.phase ≠ .run) : PlaceBlind execPrngInit s := by
  cases hseeded : s.seeded with
  | true => exact .inl ⟨raiseFault .prngReinit none s, nofun, fun a => execPrngInit_of_seeded hseeded⟩
  | false =>
    obtain ⟨ws, a1, a2, a3, e, -, hexec⟩ := execPrngInit_of_unseeded s.env
    exact .inl ⟨reportPrng { emit (initEvents ws a1 a2 a3) s with
      prng := initialised ws a1 a2 a3, seeded := true, env := e }, h, fun a => hexec (withPlace a s) rfl hseeded⟩

theorem placeBlind_execPrngAdvance {s : State} (h : s.phase ≠ .run) : PlaceBlind execPrngAdvance s := by
  cases hseeded : s.seeded with
  | false => exact .inl ⟨raiseFault .prngUninit none s, nofun, fun a => execPrngAdvance_of_unseeded hseeded⟩
  | true =>
    exact .inl ⟨reportPrng { s with prng := tripleMix s.prng }, h, fun a =>
      execPrngAdvance_of_seeded (s := withPlace a s) hseeded⟩

theorem placeBlind_execPrngUpdate {s : State} (h : s.phase ≠ .run) : PlaceBlind execPrngUpdate s := by
  cases hseeded : s.seeded with
  | false => exact .inl ⟨raiseFault .prngUninit none s, nofun, fun a => execPrngUpdate_of_unseeded hseeded⟩
  | true =>
    obtain ⟨x, e, -, hexec⟩ := execPrngUpdate_of_seeded s.env
    exact .inl ⟨reportPrng { emit [.adc x] s with prng := updated s.prng x, env := e }, h, fun a =>
      hexec (withPlace a s) rfl hseeded⟩

/-- The commands that an idle block accepts. -/
theorem placeBlind_exec {i : Instr} (hi : i.format = .cmd) {s : State} (h : s.phase ≠ .run) :
    PlaceBlind (exec i) s := by
  cases i with
  | run => exact placeBlind_execRun s
  | srUpdate => exact .inl ⟨completeVoid (srUpdate (byteOperand s) s), h, fun _ => rfl⟩
  | toneLookup => exact placeBlind_execToneLookup h
  | nextId => exact placeBlind_execNextId h
  | prngInit => exact placeBlind_execPrngInit h
  | prngAdvance => exact placeBlind_execPrngAdvance h
  | prngUpdate => exact placeBlind_execPrngUpdate h
  | _ => cases hi

theorem placeBlind_blockStep {s : State} (h : s.phase ≠ .run) : PlaceBlind blockStep s :=
  .inl ⟨s, h, fun a => blockStep_of_ne_run (s := withPlace a s) h⟩

theorem hostRead_withPlace (slot : Slot) (s : State) (a : Word16 × Byte) :
    hostRead slot (withPlace a s) = withPlace a (hostRead slot s) := by
  cases slot with
  | prng => cases h : s.seeded <;> simp [hostRead, readSlot, withPlace, anyRead, h]
  | _ => rfl

theorem placeBlind_serve (i : HostInput) {s : State} (h : s.phase ≠ .run) : PlaceBlind (serve i) s := by
  cases i with
  | write slot v =>
    cases slot with
    | cmd => exact Blind.hostWriteCmd hidden_withPlace v h nofun fun i hi => placeBlind_exec hi h
    | arg0 => exact .inl ⟨{ s with arg0 := v }, h, fun _ => rfl⟩
    | arg1 => exact .inl ⟨{ s with arg1 := v }, h, fun _ => rfl⟩
    | _ => exact .inl ⟨s, h, fun _ => rfl⟩
  | read slot =>
    exact .inl ⟨hostRead slot s, ne_of_eq_of_ne (hostRead_phase slot s) h, fun a =>
      congrArg Host.Outcome.next (hostRead_withPlace slot s a)⟩
  | grant => exact placeBlind_blockStep h
  | await => exact .inl ⟨s, h, fun _ => rfl⟩
  | driveLow l => exact .inl ⟨{ s with dev := s.dev.driveLow l }, h, fun _ => rfl⟩
  | powerCycle => exact .inr ⟨powerCycle s, fun _ => rfl⟩

theorem placeBlind_step {s : State} (h : s.phase ≠ .run) : PlaceBlind step s :=
  Blind.step hidden_withPlace (placeBlind_blockStep h) fun i _ => placeBlind_serve i h

/-- Settles O42: every step from outside a run is blind to the place, whose own values are among those compared. -/
theorem positionIsUnobservableOutsideRuns : Obligations.PositionIsUnobservableOutsideRuns := by
  intro s p q h
  obtain ⟨t, ht, hstep⟩ | ⟨t, hstep⟩ := placeBlind_step h
  · exact ⟨withPlace (s.pos, s.curSeq) t, withPlace (p, q) t, hstep (s.pos, s.curSeq), hstep (p, q), rfl,
      fun hrun => absurd hrun ht⟩
  · exact ⟨t, t, hstep (s.pos, s.curSeq), hstep (p, q), rfl, fun _ => rfl⟩

end Sys2Proof.Machine

/-! SUPPORT. The mixing primitives (44_prng.md R113 to R115): both are linear over exclusive or, so their powers are
given by the images of the 16 single bits; the powers that are needed are found by squaring these images. From the
period of the value 1 everything on cycles follows. -/

namespace Sys2Proof.Machine

/-! ### Linear maps -/

/-- The map is linear over exclusive or. -/
def XorLinear (g : Word16 → Word16) : Prop := ∀ a b, g (a ^^^ b) = g a ^^^ g b

theorem XorLinear.map_zero {g : Word16 → Word16} (hg : XorLinear g) : g 0 = 0 := by
  have h := hg 0 0
  rwa [BitVec.xor_self, BitVec.xor_self] at h

theorem XorLinear.comp {g h : Word16 → Word16} (hg : XorLinear g) (hh : XorLinear h) : XorLinear fun x => g (h x) :=
  fun a b => by simp only [hh a b, hg (h a) (h b)]

/-- A linear map that only 0 goes to 0 under is injective. -/
theorem XorLinear.injective {g : Word16 → Word16} (hg : XorLinear g) (h : ∀ x, g x = 0 → x = 0) :
    Function.Injective g := fun a b hab =>
  BitVec.xor_eq_zero_iff.mp (h _ ((hg a b).trans (hab ▸ BitVec.xor_self)))

/-- One of the three steps of `xorshift16`: a shift added to the value. -/
def mixBy (shift : Word16 → Word16) (x : Word16) : Word16 := x ^^^ shift x

theorem xorLinear_mixBy {shift : Word16 → Word16} (h : XorLinear shift) : XorLinear (mixBy shift) := fun a b => by
  simp only [mixBy, h a b]
  ac_rfl

/-- A shift that leaves nothing after three times adds injectively. -/
theorem mixBy_injective {shift : Word16 → Word16} (hlinear : XorLinear shift)
    (hzero : ∀ x, shift (shift (shift x)) = 0) : Function.Injective (mixBy shift) := by
  refine (xorLinear_mixBy hlinear).injective fun x hx => ?_
  have hfix : x = shift x := BitVec.xor_eq_zero_iff.mp hx
  rw [hfix, hfix, hfix]
  exact hzero x

theorem xorLinear_shiftLeft (n : Nat) : XorLinear (· <<< n) := fun a b => BitVec.shiftLeft_xor_distrib a b n

theorem xorLinear_ushiftRight (n : Nat) : XorLinear (· >>> n) := fun a b => BitVec.ushiftRight_xor_distrib a b n

/-- The three shifts of `xorshift16`, in their order (44_prng.md R113). -/
theorem xorshift16_eq : xorshift16 = fun x => mixBy (· <<< 8) (mixBy (· >>> 9) (mixBy (· <<< 7) x)) := rfl

theorem xorLinear_xorshift16 : XorLinear xorshift16 := by
  rw [xorshift16_eq]
  exact (xorLinear_mixBy (xorLinear_shiftLeft 8)).comp
    ((xorLinear_mixBy (xorLinear_ushiftRight 9)).comp (xorLinear_mixBy (xorLinear_shiftLeft 7)))

theorem xorshift16_injective : Function.Injective xorshift16 := by
  have hleft (n : Nat) (hn : 16 ≤ n + (n + n)) : Function.Injective (mixBy (· <<< n)) :=
    mixBy_injective (xorLinear_shiftLeft n) fun x => by
      rw [← BitVec.shiftLeft_add, ← BitVec.shiftLeft_add]
      exact BitVec.shiftLeft_eq_zero hn
  have hright : Function.Injective (mixBy (· >>> 9)) :=
    mixBy_injective (xorLinear_ushiftRight 9) fun x => by
      rw [← BitVec.shiftRight_add, ← BitVec.shiftRight_add]
      exact BitVec.ushiftRight_eq_zero (by decide)
  rw [xorshift16_eq]
  exact (hleft 8 (by decide)).comp (hright.comp (hleft 7 (by decide)))

/-- `triple_mix` is three steps of `xorshift16` (44_prng.md R114). -/
theorem tripleMix_eq_iterate : tripleMix = xorshift16^[3] := rfl

theorem xorLinear_tripleMix : XorLinear tripleMix :=
  xorLinear_xorshift16.comp (xorLinear_xorshift16.comp xorLinear_xorshift16)

theorem tripleMix_injective : Function.Injective tripleMix :=
  xorshift16_injective.comp (xorshift16_injective.comp xorshift16_injective)

/-! ### A linear map by the images of the single bits -/

/-- The exclusive or of the images `cs` at the bits of `x` that are set, from bit `i` on. -/
def combine (i : Nat) : List Word16 → Word16 → Word16
  | [], _ => 0
  | c :: cs, x => (bif x.getLsbD i then c else 0) ^^^ combine (i + 1) cs x

/-- The 16 single bits. -/
def singleBits : List Word16 := (List.range' 0 16).map (BitVec.twoPow 16)

/-- The single bits from `i` to `i + k` combine to the bits of `x` there. -/
theorem getLsbD_combine_range' (i k : Nat) (x : Word16) {j : Nat} (hj : j < 16) :
    (combine i ((List.range' i k).map (BitVec.twoPow 16)) x).getLsbD j =
      (decide (i ≤ j ∧ j < i + k) && x.getLsbD j) := by
  induction k generalizing i with
  | zero => simp [combine]
  | succ k ih =>
    rw [List.range'_succ, List.map_cons, combine, BitVec.getLsbD_xor, ih]
    by_cases hij : i = j
    · subst hij
      cases hbit : x.getLsbD i <;> simp [hj]
    · have hrest : (i + 1 ≤ j ∧ j < i + 1 + k) ↔ (i ≤ j ∧ j < i + (k + 1)) := by omega
      simp only [hrest]
      cases hbit : x.getLsbD i <;> simp [BitVec.getLsbD_twoPow, hij]

theorem combine_singleBits (x : Word16) : combine 0 singleBits x = x := by
  apply BitVec.eq_of_getLsbD_eq
  intro j hj
  rw [singleBits, getLsbD_combine_range' 0 16 x hj]
  simp [hj]

theorem select_xor (p q : Bool) (c : Word16) :
    (bif p ^^ q then c else 0) = (bif p then c else 0) ^^^ (bif q then c else 0) := by
  cases p <;> cases q <;> simp

theorem xorLinear_combine (i : Nat) (cs : List Word16) : XorLinear (combine i cs) := by
  intro a b
  induction cs generalizing i with
  | nil => exact BitVec.xor_self.symm
  | cons c cs ih =>
    simp only [combine, ih, BitVec.getLsbD_xor, select_xor]
    ac_rfl

/-- A linear map goes through the combination. -/
theorem combine_map {g : Word16 → Word16} (hg : XorLinear g) (i : Nat) (cs : List Word16) (x : Word16) :
    combine i (cs.map g) x = g (combine i cs x) := by
  induction cs generalizing i with
  | nil => exact hg.map_zero.symm
  | cons c cs ih =>
    simp only [List.map_cons, combine, ih, hg _ _]
    cases x.getLsbD i
    · simp only [cond_false, hg.map_zero]
    · rfl

/-- `cs` are the images of the single bits under `g`. -/
def Represents (cs : List Word16) (g : Word16 → Word16) : Prop := ∀ x, combine 0 cs x = g x

theorem represents_map {g : Word16 → Word16} (hg : XorLinear g) : Represents (singleBits.map g) g := fun x => by
  rw [combine_map hg, combine_singleBits]

/-- The images under the map that `cs` represents, twice. -/
def square (cs : List Word16) : List Word16 := cs.map (combine 0 cs)

theorem Represents.square {cs : List Word16} {g : Word16 → Word16} (h : Represents cs g) :
    Represents (square cs) g^[2] := fun x => by
  rw [Machine.square, combine_map (xorLinear_combine 0 cs), h, h]
  rfl

/-- The map that `cs` represents, `n` times on `x`, by squaring: `w` is a bound on the binary digits of `n`. -/
def iterateAt (cs : List Word16) : Nat → Nat → Word16 → Word16
  | 0, _, x => x
  | w + 1, n, x => iterateAt (square cs) w (n / 2) (bif n.testBit 0 then combine 0 cs x else x)

theorem iterateAt_eq {cs : List Word16} {g : Word16 → Word16} (h : Represents cs g) {w n : Nat} (hn : n < 2 ^ w)
    (x : Word16) : iterateAt cs w n x = g^[n] x := by
  induction w generalizing cs g n x with
  | zero =>
    obtain rfl : n = 0 := by omega
    rfl
  | succ w ih =>
    rw [iterateAt, ih h.square (by omega), h, ← Function.iterate_mul, Nat.testBit_zero]
    obtain hbit | hbit := Nat.mod_two_eq_zero_or_one n
    · have hn2 : 2 * (n / 2) = n := by omega
      simp [hbit, hn2]
    · have hn2 : 2 * (n / 2) + 1 = n := by omega
      conv_rhs => rw [← hn2, Function.iterate_succ_apply]
      simp [hbit]

/-! ### The period of the value 1 -/

/-- The value 1 after `n` steps of `xorshift16`. -/
def orbitOfOne (n : Nat) : Word16 := iterateAt (singleBits.map xorshift16) 16 n 1

theorem orbitOfOne_eq {n : Nat} (hn : n < 2 ^ 16) : orbitOfOne n = xorshift16^[n] 1 :=
  iterateAt_eq (represents_map xorLinear_xorshift16) hn 1

/-- After 65535 steps 1 comes back, and not after the quotients of 65535 by its prime factors 3, 5, 17 and 257. -/
theorem orbitOfOne_values : orbitOfOne 65535 = 1 ∧ orbitOfOne 21845 ≠ 1 ∧ orbitOfOne 13107 ≠ 1 ∧
    orbitOfOne 3855 ≠ 1 ∧ orbitOfOne 255 ≠ 1 := by
  decide +kernel

/-- A proper divisor of 65535 divides one of its quotients by a prime factor. -/
theorem dvd_quotient_of_dvd {d : Nat} (h : d ∣ 65535) (hne : d ≠ 65535) :
    d ∣ 21845 ∨ d ∣ 13107 ∨ d ∣ 3855 ∨ d ∣ 255 := by
  obtain ⟨q, hq⟩ := h
  have hq1 : q ≠ 1 := by
    rintro rfl
    omega
  obtain ⟨p, hp, r, rfl⟩ := Nat.exists_prime_and_dvd hq1
  have hfactors : p ∣ 3 * 5 * 17 * 257 := ⟨d * r, by rw [Nat.mul_left_comm, ← hq]⟩
  simp only [hp.dvd_mul, Nat.prime_dvd_prime_iff_eq hp (show Nat.Prime 3 by norm_num),
    Nat.prime_dvd_prime_iff_eq hp (show Nat.Prime 5 by norm_num),
    Nat.prime_dvd_prime_iff_eq hp (show Nat.Prime 17 by norm_num),
    Nat.prime_dvd_prime_iff_eq hp (show Nat.Prime 257 by norm_num)] at hfactors
  have hdr : d * r * p = 65535 := by rw [Nat.mul_assoc, Nat.mul_comm r p, ← hq]
  obtain ((rfl | rfl) | rfl) | rfl := hfactors
  · exact .inl ⟨r, by omega⟩
  · exact .inr (.inl ⟨r, by omega⟩)
  · exact .inr (.inr (.inl ⟨r, by omega⟩))
  · exact .inr (.inr (.inr ⟨r, by omega⟩))

/-- The least period of 1 is 65535. -/
theorem minimalPeriod_one : Function.minimalPeriod xorshift16 1 = 65535 := by
  obtain ⟨hback, h3, h5, h17, h257⟩ := orbitOfOne_values
  have hperiod : Function.minimalPeriod xorshift16 1 ∣ 65535 :=
    Function.IsPeriodicPt.minimalPeriod_dvd ((orbitOfOne_eq (by decide)).symm.trans hback)
  have hnot {k : Nat} (hk : k < 2 ^ 16) (hne : orbitOfOne k ≠ 1) : ¬Function.minimalPeriod xorshift16 1 ∣ k :=
    fun hdvd => hne ((orbitOfOne_eq hk).trans (Function.isPeriodicPt_iff_minimalPeriod_dvd.mpr hdvd))
  by_contra hne
  obtain h | h | h | h := dvd_quotient_of_dvd hperiod hne
  · exact hnot (by decide) h3 h
  · exact hnot (by decide) h5 h
  · exact hnot (by decide) h17 h
  · exact hnot (by decide) h257 h

theorem iterate_one_eq_one_iff (n : Nat) : xorshift16^[n] 1 = 1 ↔ 65535 ∣ n := by
  rw [← minimalPeriod_one]
  exact Function.isPeriodicPt_iff_minimalPeriod_dvd

/-! ### The one cycle -/

theorem iterate_one_ne_zero (n : Nat) : xorshift16^[n] 1 ≠ 0 := by
  have hzero : xorshift16^[n] 0 = 0 := Function.iterate_fixed xorLinear_xorshift16.map_zero n
  intro h
  exact absurd (xorshift16_injective.iterate n (h.trans hzero.symm)) (by decide)

/-- The 65535 values on the cycle of 1 are all the nonzero ones. -/
theorem exists_iterate_one {y : Word16} (hy : y ≠ 0) : ∃ n, n < 65535 ∧ xorshift16^[n] 1 = y := by
  have hcard : Fintype.card Word16 = 65536 := (Fintype.card_congr BitVec.equivFin.toEquiv).trans (Fintype.card_fin _)
  have hinj : Set.InjOn (fun n => xorshift16^[n] 1) (Finset.range 65535) := by
    rw [Finset.coe_range, ← minimalPeriod_one]
    exact Function.iterate_injOn_Iio_minimalPeriod
  have hsubset : (Finset.range 65535).image (fun n => xorshift16^[n] 1) ⊆ Finset.univ.erase 0 := by
    intro x hx
    obtain ⟨n, -, rfl⟩ := Finset.mem_image.mp hx
    exact Finset.mem_erase.mpr ⟨iterate_one_ne_zero n, Finset.mem_univ _⟩
  have hall := Finset.eq_of_subset_of_card_le hsubset (by
    rw [Finset.card_image_of_injOn hinj, Finset.card_erase_of_mem (Finset.mem_univ _), Finset.card_univ, hcard,
      Finset.card_range])
  have hmem : y ∈ (Finset.range 65535).image (fun n => xorshift16^[n] 1) := by
    rw [hall]
    exact Finset.mem_erase.mpr ⟨hy, Finset.mem_univ _⟩
  obtain ⟨n, hn, rfl⟩ := Finset.mem_image.mp hmem
  exact ⟨n, Finset.mem_range.mp hn, rfl⟩

/-- Every nonzero value has the period of 1, from which it is reached. -/
theorem iterate_eq_self_iff {x : Word16} (hx : x ≠ 0) (n : Nat) : xorshift16^[n] x = x ↔ 65535 ∣ n := by
  obtain ⟨a, -, rfl⟩ := exists_iterate_one hx
  rw [← Function.iterate_add_apply, Nat.add_comm, Function.iterate_add_apply,
    (xorshift16_injective.iterate a).eq_iff, iterate_one_eq_one_iff]

/-- From every nonzero value every other is reached. -/
theorem exists_iterate {x y : Word16} (hx : x ≠ 0) (hy : y ≠ 0) : ∃ n, n < 65535 ∧ xorshift16^[n] x = y := by
  obtain ⟨a, ha, rfl⟩ := exists_iterate_one hx
  obtain ⟨b, hb, rfl⟩ := exists_iterate_one hy
  obtain hab | hab := Nat.lt_or_ge b a
  · refine ⟨b + 65535 - a, by omega, ?_⟩
    have hsum : b + 65535 - a + a = b + 65535 := by omega
    rw [← Function.iterate_add_apply, hsum, Function.iterate_add_apply, (iterate_one_eq_one_iff _).mpr dvd_rfl]
  · exact ⟨b - a, by omega, by rw [← Function.iterate_add_apply, Nat.sub_add_cancel hab]⟩

theorem tripleMix_iterate (n : Nat) (x : Word16) : tripleMix^[n] x = xorshift16^[3 * n] x := by
  rw [tripleMix_eq_iterate, ← Function.iterate_mul]

/-- Settles O46: every nonzero value has period 65535, and three steps at a time come back after a third of it. -/
theorem mixCycleLengths : Obligations.MixCycleLengths := by
  intro x hx
  refine ⟨fun y hy => exists_iterate hx hy, (iterate_eq_self_iff hx _).mpr dvd_rfl, ?_, fun n hpos hlt hback => ?_⟩
  · rw [tripleMix_iterate]
    exact (iterate_eq_self_iff hx _).mpr dvd_rfl
  · rw [tripleMix_iterate, iterate_eq_self_iff hx] at hback
    omega

/-- Settles O45: injective linear maps of a finite set, with a period of more than three steps on the nonzero
values. -/
theorem mixIsALinearBijection : Obligations.MixIsALinearBijection := by
  have hfixed {n : Nat} (hn : ¬65535 ∣ n) {x : Word16} (hx : xorshift16^[n] x = x) : x = 0 :=
    not_not.mp fun hne => hn ((iterate_eq_self_iff hne n).mp hx)
  exact ⟨Finite.injective_iff_bijective.mp xorshift16_injective, Finite.injective_iff_bijective.mp tripleMix_injective,
    xorLinear_xorshift16, xorLinear_tripleMix,
    fun x => ⟨hfixed (n := 1) (by decide), by rintro rfl; exact xorLinear_xorshift16.map_zero⟩,
    fun x => ⟨hfixed (n := 3) (by decide), by rintro rfl; exact xorLinear_tripleMix.map_zero⟩⟩

/-! ### The seed and the samples -/

theorem seedFold_replicate_zero (n : Nat) : seedFold (List.replicate n 0) = 0 := by
  induction n with
  | zero => rfl
  | succ n ih => exact ih

/-- Where the environment has fixed the whole boot window, its words are the ones read (log 24). -/
theorem InitDraws.words_eq {e e' : Env} {ws : List Word16} {a1 a2 a3 : Word16} (h : InitDraws e ws a1 a2 a3 e')
    (hlen : e.bootIn.length = seedWords) : ws = e.bootIn := by
  have hwords := h.words
  rw [List.take_of_length_le (Nat.le_of_eq hlen)] at hwords
  exact (hwords.eq_of_length (hlen.trans h.length.symm)).symm

/-- The samples' mixes are the mix of their exclusive or (44_prng.md R119). -/
theorem tripleMix_xor_three (a b c : Word16) :
    tripleMix a ^^^ tripleMix b ^^^ tripleMix c = tripleMix (a ^^^ b ^^^ c) := by
  rw [xorLinear_tripleMix, xorLinear_tripleMix]

theorem initialised_eq (ws : List Word16) (a b c : Word16) :
    initialised ws a b c = seedFold ws ^^^ tripleMix (a ^^^ b ^^^ c) := by
  rw [← tripleMix_xor_three, initialised]
  ac_rfl

/-- Settles O48: over an all-zero window and samples that cancel both parts of the new state are 0, which the mix
keeps. -/
theorem noiseFoldsToOneMix : Obligations.NoiseFoldsToOneMix := by
  refine ⟨tripleMix_xor_three, seedFold_replicate_zero, fun s a b c rest hseeded hboot hadc hcancel => ?_⟩
  obtain ⟨ws, a1, a2, a3, e, he, hexec⟩ := execPrngInit_of_unseeded s.env
  have hlen : s.env.bootIn.length = seedWords := (congrArg List.length hboot).trans List.length_replicate
  have hws : ws = List.replicate 1024 0 := (he.words_eq hlen).trans hboot
  have ha1 : a1 = a := he.first a (by rw [hadc]; rfl)
  have ha2 : a2 = b := he.second b (by rw [hadc]; rfl)
  have ha3 : a3 = c := he.third c (by rw [hadc]; rfl)
  have hzero : initialised ws a1 a2 a3 = 0 := by
    rw [initialised_eq, hws, seedFold_replicate_zero, ha1, ha2, ha3, hcancel, xorLinear_tripleMix.map_zero]
    rfl
  refine ⟨_, _, hexec s rfl hseeded, hzero, execPrngAdvance_of_seeded rfl, ?_⟩
  exact (congrArg tripleMix hzero).trans xorLinear_tripleMix.map_zero

/-! ### The states that `PRNG_UPDATE` reaches -/

theorem toNat_and_low_nibble (x : Word16) : (x &&& 0x000F).toNat = x.toNat % 16 := by
  rw [BitVec.toNat_and]
  exact Nat.and_two_pow_sub_one_eq_mod x.toNat 4

/-- A low nibble is one of 16 values. -/
theorem exists_low_nibble (x : Word16) : ∃ k, k < 16 ∧ x &&& 0x000F = BitVec.ofNat 16 k := by
  refine ⟨x.toNat % 16, Nat.mod_lt _ (by decide), BitVec.eq_of_toNat_eq ?_⟩
  rw [toNat_and_low_nibble, BitVec.toNat_ofNat]
  omega

theorem low_nibble_of_lt {k : Nat} (h : k < 16) : BitVec.ofNat 16 k &&& 0x000F = BitVec.ofNat 16 k := by
  apply BitVec.eq_of_toNat_eq
  rw [toNat_and_low_nibble, BitVec.toNat_ofNat]
  omega

/-- The mixes of one value with each low nibble flipped in are distinct (44_prng.md R122). -/
theorem nodup_flipped_nibbles (x : Word16) :
    ((List.range 16).map fun k => tripleMix (x ^^^ BitVec.ofNat 16 k)).Nodup := by
  refine List.Nodup.map_on (fun j hj k hk hjk => ?_) List.nodup_range
  have hxor : BitVec.ofNat 16 j = BitVec.ofNat 16 k := (BitVec.xor_right_inj x).mp (tripleMix_injective hjk)
  have hnat := congrArg BitVec.toNat hxor
  rw [BitVec.toNat_ofNat, BitVec.toNat_ofNat] at hnat
  rw [List.mem_range] at hj hk
  omega

/-- A seeded `PRNG_UPDATE` on a sample that the environment has fixed (log 5). -/
theorem execPrngUpdate_of_fixed {s : State} {a : Word16} {rest : List Word16} (hseeded : s.seeded = true)
    (hadc : s.env.adcIn = a :: rest) :
    execPrngUpdate s = .next (reportPrng { emit [.adc a] s with
      prng := updated s.prng a
      env := { s.env with adcIn := rest } }) := by
  rw [execPrngUpdate, if_pos hseeded, adcSample_fixed s a rest hadc]
  rfl

/-- A sample whose mixed low nibble is 0 leaves what `PRNG_ADVANCE` does (44_prng.md R122). -/
theorem updated_of_zero_nibble {a : Word16} (h : tripleMix a &&& 0x000F = 0) (x : Word16) :
    updated x a = tripleMix x := by
  rw [updated, h]
  exact congrArg tripleMix BitVec.xor_zero

/-- From 0 the state becomes the mix of the nibble. -/
theorem updated_zero (a : Word16) : updated 0 a = tripleMix (tripleMix a &&& 0x000F) :=
  congrArg tripleMix BitVec.zero_xor

/-- Settles O49: the new state is the mix of the old one with the sample's nibble added, and `triple_mix` is a
bijection. -/
theorem updateReachesSixteenStates : Obligations.UpdateReachesSixteenStates := by
  refine ⟨by decide, by decide, fun s hseeded => ⟨nodup_flipped_nibbles s.prng, fun env => ?_, fun k hk => ?_,
    fun a rest ha => ?_, fun a rest hprng => ?_⟩⟩
  · obtain ⟨a, e, -, hexec⟩ := execPrngUpdate_of_seeded env
    obtain ⟨k, hk, hnibble⟩ := exists_low_nibble (tripleMix a)
    exact ⟨_, k, hk, hexec { s with env := env } rfl hseeded, congrArg (fun n => tripleMix (s.prng ^^^ n)) hnibble⟩
  · obtain ⟨a, ha⟩ := (Finite.injective_iff_bijective.mp tripleMix_injective).surjective (BitVec.ofNat 16 k)
    have hnibble : tripleMix a &&& 0x000F = BitVec.ofNat 16 k := by rw [ha, low_nibble_of_lt hk]
    exact ⟨a, fun rest =>
      ⟨_, execPrngUpdate_of_fixed hseeded rfl, congrArg (fun n => tripleMix (s.prng ^^^ n)) hnibble⟩⟩
  · have hupdate := execPrngUpdate_of_fixed (s := { s with env := { s.env with adcIn := a :: rest } }) hseeded rfl
    rw [updated_of_zero_nibble ha] at hupdate
    exact ⟨_, execPrngAdvance_of_seeded hseeded, hupdate⟩
  · have hupdated : updated s.prng a = tripleMix (tripleMix a &&& 0x000F) := by rw [hprng, updated_zero]
    refine ⟨_, execPrngUpdate_of_fixed hseeded rfl, hupdated, fun hne hzero => hne ?_, ?_⟩
    · exact tripleMix_injective ((hupdated.symm.trans hzero).trans xorLinear_tripleMix.map_zero.symm)
    · rintro rfl
      exact hupdated.trans (by decide)

end Sys2Proof.Machine

/-! SUPPORT. Well-formed graphs (20_memory.md R46): the totals of their nodes, a step of the walk over them
(43_random_walk.md R104, R109, R110), and the build-time check. -/

namespace Sys2Proof.Machine

/-! ### The totals -/

theorem totalWeight_le (es : List Edge) : totalWeight es ≤ 255 * es.length := by
  induction es with
  | nil => exact Nat.le_refl 0
  | cons e es ih =>
    have he : e.weight.toNat < 256 := e.weight.isLt
    rw [totalWeight, List.length_cons]
    omega

theorem totalWeight_pos {es : List Edge} (hne : es ≠ []) (hpos : ∀ e ∈ es, 0 < e.weight.toNat) :
    0 < totalWeight es := by
  cases es with
  | nil => exact absurd rfl hne
  | cons e es => exact Nat.add_pos_left (hpos e (.head _)) _

/-- A reachable node of a well-formed graph has a positive total (43_random_walk.md R104). -/
theorem totalWeight_pos_of_reach {g : Graph} (hg : g.WF) {n : Node} (hn : n ∈ g) (hreach : Graph.Reach g n.id) :
    0 < totalWeight n.edges :=
  totalWeight_pos (hg.outgoing n hn hreach) (hg.positive n hn)

/-- Settles O51: at most 255 edges of weight at most 255, and at least one of positive weight where the node is
reached. -/
theorem wellFormedTotals : Obligations.WellFormedTotals := by
  intro g hg n hn
  refine ⟨?_, totalWeight_pos_of_reach hg hn⟩
  calc totalWeight n.edges
      ≤ 255 * n.edges.length := totalWeight_le n.edges
    _ ≤ 255 * 255 := Nat.mul_le_mul_left 255 (hg.fanOut n hn)

/-! ### A step of the walk -/

/-- The node that is found is in the graph and has the id that was looked for. -/
theorem findNode_some {g : Graph} {cur : Byte} {n : Node} (h : findNode g cur = some n) : n ∈ g ∧ n.id = cur :=
  ⟨List.mem_of_find?_eq_some h, by simpa using List.find?_some h⟩

@[simp] theorem setWidth_zext16 (b : Byte) : (zext16 b).setWidth 8 = b := by
  rw [zext16, BitVec.setWidth_setWidth_of_le _ (by decide), BitVec.setWidth_eq]

theorem toNat_zext16_lt (b : Byte) : (zext16 b).toNat < 256 := by
  rw [zext16, BitVec.toNat_setWidth]
  exact (Nat.mod_le _ _).trans_lt b.isLt

/-- From a reachable id, seeded and over a well-formed graph, the walk reports a reachable id. -/
theorem execNextId_of_reach {s : State} (hg : s.mem.graph.WF) (hseeded : s.seeded = true)
    (hreach : Graph.Reach s.mem.graph (byteOperand s)) :
    ∃ target x, Graph.Reach s.mem.graph target ∧
      execNextId s = .next (completeWith (zext16 target) { s with prng := x }) := by
  cases hfound : findNode s.mem.graph (byteOperand s) with
  | none =>
    refine ⟨byteOperand s, s.prng, hreach, ?_⟩
    rw [execNextId, hfound]
  | some n =>
    obtain ⟨hn, hid⟩ := findNode_some hfound
    rw [← hid] at hreach
    obtain ⟨e, he, -, hwalk⟩ := walkFrom_takes_edge hseeded (totalWeight_pos_of_reach hg hn hreach)
    exact ⟨e.target, tripleMix s.prng, .edge hreach hn he, (execNextId_of_found hfound).trans hwalk⟩

/-- Settles O52: an absent id is its own result, and a found node passes on to the target of an edge. -/
theorem walkStaysReachable : Obligations.WalkStaysReachable := by
  intro s hg hseeded hreach
  rw [← byteOperand_eq_setWidth] at hreach
  obtain ⟨target, x, htarget, hexec⟩ := execNextId_of_reach hg hseeded hreach
  refine ⟨_, hexec, rfl, rfl, rfl, ?_, toNat_zext16_lt target⟩
  rw [completeWith_result, setWidth_zext16]
  exact htarget

/-! ### The build-time check -/

theorem mem_succs {g : Graph} {ids : List Byte} {n : Node} {e : Edge} (hn : n ∈ g) (hid : n.id ∈ ids)
    (he : e ∈ n.edges) : e.target ∈ g.succs ids := by
  refine List.mem_flatMap.mpr ⟨n, List.mem_filter.mpr ⟨hn, ?_⟩, List.mem_map_of_mem he⟩
  simpa using hid

/-- A list of ids that holds 0 and is closed under the edges holds what node 0 reaches. -/
theorem mem_of_reach {g : Graph} {ids : List Byte} (hzero : 0 ∈ ids) (hclosed : ∀ t ∈ g.succs ids, t ∈ ids)
    {b : Byte} (h : Graph.Reach g b) : b ∈ ids := by
  induction h with
  | start => exact hzero
  | edge _ hn he ih => exact hclosed _ (mem_succs hn ih he)

/-- Settles O53: the check has made sure that `reachable` is closed under the edges, so it holds every id that node 0
reaches. -/
theorem graphCheckIsSound : Obligations.GraphCheckIsSound := by
  intro g h
  simp only [Graph.check, Bool.and_eq_true, decide_eq_true_eq, List.all_eq_true, List.contains_iff_mem] at h
  obtain ⟨⟨⟨⟨⟨hunique, hpositive⟩, hzero⟩, hclosed⟩, houtgoing⟩, hfanOut⟩ := h
  refine ⟨hunique, hpositive, fun n hn hreach hnil => ?_, hfanOut⟩
  have hmem : n.id ∈ g.reachable := mem_of_reach hzero hclosed hreach
  simpa [hmem, hnil] using houtgoing n hn

end Sys2Proof.Machine
